-- ==== Sys2Proof/Word.lean ====
section
/-! DEFINITION. The word types of the block: every width the spec fixes, under the name it has there. -/

namespace Sys2Proof

/-- An 8-bit operand field or protocol byte (R80, R81). -/
abbrev Byte := BitVec 8

/-- A 32-bit word of a packet, a response or the status window (R80, R86, R40). -/
abbrev Word := BitVec 32

/-- A Duration: an unsigned count of `TB_UNIT` of `DUR_W` = 32 bits, never computed with (R7, R4). -/
abbrev Duration := BitVec 32

/-- A slot index or a number of slots, `IDX_W` = 16 bits (R4, R22, R25, R60). -/
abbrev SlotIndex := BitVec 16

/-- A command packet, `p[127:0]` (R80). -/
abbrev Packet := BitVec 128

end Sys2Proof
end

