-- ==== Sys2Proof/Syntax.lean ====
section
/-! DEFINITION. The commands of the block: one constructor per row of spec/opcode_table.json, with the
operands of R81 at the widths of R81, and the Button type of R82. -/

namespace Sys2Proof

/-- The four Buttons (R82). -/
inductive Button where
  | power
  | up
  | down
  | cancel
deriving DecidableEq, Repr

/-- A host command (R83). Register and slot indices keep every value their field can hold; which of
them a command refuses is said by its rule (R84 cases 3 to 5). -/
inductive Instr where
  /-- NOP (R190). -/
  | nop
  /-- RD `reg` (R191). -/
  | rd (reg : Byte)
  /-- SEQ.CLR (R111). -/
  | seqClr
  /-- SEQ.PUSH `v` (R113), `true` for an on slot. -/
  | seqPush (v : Bool)
  /-- SEQ.GET `idx` (R114). -/
  | seqGet (idx : SlotIndex)
  /-- ENC.NEC `addr_low`, `addr_high`, `command` (R150). -/
  | encNec (addrLow addrHigh command : Byte)
  /-- ENC.BIPH `button` (R160). -/
  | encBiph (button : Button)
  /-- BS.SEND `slot_period`, `carrier_period`, `carrier_pulse` (R121). -/
  | bsSend (slotPeriod carrierPeriod carrierPulse : Duration)
  /-- PP.PRESS `button` (R171). -/
  | ppPress (button : Button)
deriving DecidableEq, Repr

end Sys2Proof
end

