-- ==== Sys2Proof/WellFormed.lean ====
section
/-! DEFINITION. Which commands are legal from the packet alone: R84 cases (3) and (4). Cases (1) and (2)
cannot be written as an `Instr` (the decoder refuses them); case (5) depends on the state. -/

namespace Sys2Proof

/-- The last index of the status window (R40). -/
def lastStatusIndex : Byte := 0x0B

/-- A command whose operands are legal whatever the state (R84): RD names one of the twelve registers,
BS.SEND has a nonzero slot period. -/
def Instr.wellFormed : Instr → Bool
  | .nop => true
  | .rd reg => decide (reg ≤ lastStatusIndex)
  | .seqClr => true
  | .seqPush _ => true
  | .seqGet _ => true
  | .encNec _ _ _ => true
  | .encBiph _ => true
  | .bsSend slotPeriod _ _ => decide (slotPeriod ≠ 0)
  | .ppPress _ => true

end Sys2Proof
end

