-- ==== Sys2Proof/Decode.lean ====
section
/-! DEFINITION. The decoder of R83 and R84, total on all 2^128 packets and refusing by name, and after it
the encoder, written from the same field table (R80, R81, R83). -/

namespace Sys2Proof

/-! ### Fields of a packet (R80) -/

/-- `op = p[31:24]`. -/
def Packet.op (p : Packet) : Byte := p.extractLsb' 24 8
/-- `a = p[23:16]`. -/
def Packet.a (p : Packet) : Byte := p.extractLsb' 16 8
/-- `b = p[15:8]`. -/
def Packet.b (p : Packet) : Byte := p.extractLsb' 8 8
/-- `c = p[7:0]`. -/
def Packet.c (p : Packet) : Byte := p.extractLsb' 0 8
/-- `d0 = p[63:32]`. -/
def Packet.d0 (p : Packet) : Word := p.extractLsb' 32 32
/-- `d1 = p[95:64]`. -/
def Packet.d1 (p : Packet) : Word := p.extractLsb' 64 32
/-- `d2 = p[127:96]`. -/
def Packet.d2 (p : Packet) : Word := p.extractLsb' 96 32

/-- The packet with the given fields (R80): `d2` most significant, `c` least. -/
def Packet.ofFields (op a b c : Byte) (d0 d1 d2 : Word) : Packet :=
  d2 ++ d1 ++ d0 ++ op ++ a ++ b ++ c

/-! ### Button codes (R82) -/

/-- The Button a two-bit field holds; every value is a Button (R82). -/
def Button.ofBits (x : BitVec 2) : Button :=
  if x = 0 then .power
  else if x = 1 then .up
  else if x = 2 then .down
  else .cancel

/-- POWER = 0, UP = 1, DOWN = 2, CANCEL = 3 (R82). -/
def Button.bits : Button → BitVec 2
  | .power => 0
  | .up => 1
  | .down => 2
  | .cancel => 3

/-! ### The decoder -/

/-- Why a packet is no command (R84 cases 1 and 2). -/
inductive Illegal where
  /-- Case (1): the opcode is not one of the nine. -/
  | unknownOpcode
  /-- Case (2): a must-be-zero field of the opcode's row is not zero. -/
  | reservedNonzero
deriving DecidableEq, Repr

/-- What a packet decodes to. -/
inductive Decoded where
  | command (i : Instr)
  | illegal (why : Illegal)
deriving DecidableEq, Repr

/-- The command where the row's must-be-zero fields are zero, the refusal of R84 case (2) otherwise. -/
def Decoded.whenZero (zero : Bool) (i : Instr) : Decoded :=
  if zero then .command i else .illegal .reservedNonzero

/-- The three Duration words are zero, as every command but BS.SEND asks (R83). -/
def Packet.wordsZero (p : Packet) : Bool := p.d0 == 0 && p.d1 == 0 && p.d2 == 0

/-- The decoder: the opcode map of R83 with each row's must-be-zero fields (R84 cases 1 and 2). Whether
the operands of RD, SEQ.GET and BS.SEND are in range is left to the command's rule (R84 cases 3 to 5). -/
def decode (p : Packet) : Decoded :=
  if p.op = 0x00 then
    .whenZero (p.a == 0 && p.b == 0 && p.c == 0 && p.wordsZero) .nop
  else if p.op = 0x01 then
    .whenZero (p.b == 0 && p.c == 0 && p.wordsZero) (.rd p.a)
  else if p.op = 0x10 then
    .whenZero (p.a == 0 && p.b == 0 && p.c == 0 && p.wordsZero) .seqClr
  else if p.op = 0x11 then
    .whenZero (p.a == 0 && p.b == 0 && p.c.extractLsb' 1 7 == 0 && p.wordsZero) (.seqPush (p.c.getLsbD 0))
  else if p.op = 0x12 then
    .whenZero (p.a == 0 && p.wordsZero) (.seqGet (p.b ++ p.c))
  else if p.op = 0x20 then
    .whenZero p.wordsZero (.encNec p.a p.b p.c)
  else if p.op = 0x21 then
    .whenZero (p.a == 0 && p.b == 0 && p.c.extractLsb' 2 6 == 0 && p.wordsZero)
      (.encBiph (.ofBits (p.c.extractLsb' 0 2)))
  else if p.op = 0x30 then
    .whenZero (p.a == 0 && p.b == 0 && p.c == 0) (.bsSend p.d0 p.d1 p.d2)
  else if p.op = 0x40 then
    .whenZero (p.a == 0 && p.b == 0 && p.c.extractLsb' 2 6 == 0 && p.wordsZero)
      (.ppPress (.ofBits (p.c.extractLsb' 0 2)))
  else
    .illegal .unknownOpcode

/-! ### The encoder -/

/-- The opcode of a command (R83). -/
def Instr.opcode : Instr → Byte
  | .nop => 0x00
  | .rd _ => 0x01
  | .seqClr => 0x10
  | .seqPush _ => 0x11
  | .seqGet _ => 0x12
  | .encNec _ _ _ => 0x20
  | .encBiph _ => 0x21
  | .bsSend _ _ _ => 0x30
  | .ppPress _ => 0x40

/-- The packet of a command (R81, R83): operands in their fields, every other field zero. -/
def encode : Instr → Packet
  | .nop => .ofFields 0x00 0 0 0 0 0 0
  | .rd reg => .ofFields 0x01 reg 0 0 0 0 0
  | .seqClr => .ofFields 0x10 0 0 0 0 0 0
  | .seqPush v => .ofFields 0x11 0 0 ((BitVec.ofBool v).setWidth 8) 0 0 0
  | .seqGet idx => .ofFields 0x12 0 (idx.extractLsb' 8 8) (idx.extractLsb' 0 8) 0 0 0
  | .encNec al ah cmd => .ofFields 0x20 al ah cmd 0 0 0
  | .encBiph button => .ofFields 0x21 0 0 (button.bits.setWidth 8) 0 0 0
  | .bsSend sp cp pw => .ofFields 0x30 0 0 0 sp cp pw
  | .ppPress button => .ofFields 0x40 0 0 (button.bits.setWidth 8) 0 0 0

/-! ### The same words as spec/opcode_table.json numbers them -/

/-- The packet whose low `nbits` bits are `w` and whose other bits are zero. A packet is one 128-bit
value with no byte order (R69), so the table's numbering is the packet's own. -/
def packetOfTableWord (nbits w : Nat) : Packet := BitVec.ofNat 128 (w % 2 ^ nbits)

/-- The command the decoder reads from a table word; none where it refuses. -/
def decodeTableWord (nbits w : Nat) : Option Instr :=
  match decode (packetOfTableWord nbits w) with
  | .command i => some i
  | .illegal _ => none

end Sys2Proof
end

