-- ==== Sys2Proof/Config.lean ====
section
/-! DEFINITION. What is fixed for one block (the parameters of R4), and the free values: constants without
a body that stand for what the spec leaves open or to the environment. -/

namespace Sys2Proof

/-- What a device answers to an operation (R6, R227, R228). -/
inductive Answer where
  | ok
  | err
deriving DecidableEq, Repr, Inhabited

/-- A step the machine can be asked to take (R8, R88): the host's next command, or one of the internal
steps, which have no encoding. -/
inductive Move where
  /-- Agent HOST: the port takes the next packet the host offers (R87). -/
  | host
  /-- Agent BS_TIMER, step BS_TICK (R126). -/
  | bsTick
  /-- Agent BS_WORKER, step BS_WORK (R127). -/
  | bsWork
  /-- Agent BS_WAITER, step BS_GRANT (R124). -/
  | bsGrant
  /-- Agent BS_WAITER, step BS_TIMEOUT (R125). -/
  | bsTimeout
  /-- Agent PP_TIMER, step PP_TICK (R174). -/
  | ppTick
  /-- Agent RESET, step RESET (R240). -/
  | reset
deriving DecidableEq, Repr, Inhabited

/-- The three operand bytes a projector button stands for (R4 `NEC_BUTTON_TABLE`, R196). -/
structure NecTriple where
  addrLow : Byte
  addrHigh : Byte
  command : Byte
deriving DecidableEq, Repr, Inhabited

/-- `NEC_BUTTON_TABLE` (R4, R196) as plain data: one entry per Button, `none` where the projector has no
such button. -/
structure ButtonTable where
  power : Option NecTriple
  up : Option NecTriple
  down : Option NecTriple
  cancel : Option NecTriple
deriving DecidableEq, Repr, Inhabited

/-- The implementation parameters of R4, one field each. They are fixed before reset is released and do
not change while the block runs (R44). -/
structure Config where
  /-- `CAP`, 1 to 65535. -/
  cap : SlotIndex
  /-- `IDX_W`, the width of slot indices and of the fill length: 16, the width of `SlotIndex`. Log 20. -/
  idxW : Nat
  /-- `DUR_W`, the width of a Duration: 32, the width of `Duration`. Log 20. -/
  durW : Nat
  /-- `TB_UNIT`, the real time of one Duration unit, as a whole number of a unit no rule names; no rule
  reads it. DESIGN CHOICE, log 12. -/
  tbUnit : Nat
  /-- `TOKEN_WAIT`. -/
  tokenWait : Duration
  /-- `NEC_SLOT_PERIOD`, nonzero. -/
  necSlotPeriod : Duration
  /-- `NEC_BASE_UNIT`. -/
  necBaseUnit : Duration
  /-- `NEC_CARRIER_PERIOD`. -/
  necCarrierPeriod : Duration
  /-- `NEC_CARRIER_PULSE`. -/
  necCarrierPulse : Duration
  /-- `BIPH_SLOT_PERIOD`, nonzero. -/
  biphSlotPeriod : Duration
  /-- `BIPH_CARRIER_PERIOD`. -/
  biphCarrierPeriod : Duration
  /-- `BIPH_CARRIER_PULSE`. -/
  biphCarrierPulse : Duration
  /-- `BIPH_ADDR`, 5 bits. -/
  biphAddr : BitVec 5
  /-- `BIPH_CMD_POWER`, 6 bits. -/
  biphCmdPower : BitVec 6
  /-- `NEC_BUTTON_TABLE`. -/
  necButtons : ButtonTable
  /-- `PP_BASE_UNIT`, nonzero. -/
  ppBaseUnit : Duration
  /-- `PP_PREAMBLE_TICKS`, 1 to 65535. -/
  ppPreambleTicks : BitVec 16
  /-- `PP_FIXED_CODE`, 32 bits, masked to 20 where it is used (R173). -/
  ppFixedCode : BitVec 32
  /-- `PP_SHIFT`, normative value 5 (R173). -/
  ppShift : Nat
  /-- `PP_KEY_UP`. -/
  ppKeyUp : Byte
  /-- `PP_KEY_DOWN`. -/
  ppKeyDown : Byte
  /-- `PP_KEY_CANCEL`. -/
  ppKeyCancel : Byte
  /-- `PP_RETRY_DEFAULT`, normative value 5 (R35). -/
  ppRetryDefault : Byte
deriving DecidableEq, Repr

/-- The constraints of R245 (and R4) that the field widths do not already carry. `NEC_SLOT_PERIOD` is
`NEC_BASE_UNIT / 4` in whole numbers (DEDUCED, log 11); `IDX_W` and `DUR_W` are the widths of the types
(log 20). -/
def Config.wf (c : Config) : Bool :=
  decide (c.idxW = 16) && decide (c.durW = 32) &&
    decide (c.cap ≠ 0) && decide (c.necSlotPeriod ≠ 0) && decide (c.biphSlotPeriod ≠ 0) &&
    decide (c.ppBaseUnit ≠ 0) && decide (c.ppPreambleTicks ≠ 0) &&
    decide (c.necSlotPeriod.toNat = c.necBaseUnit.toNat / 4)

/-! ### Free values: no body, so nothing can be proved of them but their type -/

/-- The answer the carrier-modulated channel gives to the `n`-th operation whose answer no plain data
fixes (R227: "an input of the environment that no rule constrains"). Log 3. -/
opaque Config.freeChanAnswer : Nat → Answer

/-- The same for the digital output pin (R228). Log 3. -/
opaque Config.freePinAnswer : Nat → Answer

/-- The step taken at the `n`-th choice that no plain data fixes (R220). Log 2. -/
opaque Config.freeMove : Nat → Move

/-- OPEN parameters (R4): one constant each. Where R245 asks for a nonzero value the constant ranges over
exactly the allowed ones, less the offset written at its use. Log 1. -/
opaque Config.freeTbUnit : Nat
opaque Config.freeTokenWait : Duration
opaque Config.freeNecBaseUnitLess4 : Fin 4294967292
opaque Config.freeNecCarrierPeriod : Duration
opaque Config.freeNecCarrierPulse : Duration
opaque Config.freeBiphSlotPeriodLess1 : Fin 4294967295
opaque Config.freeBiphCarrierPeriod : Duration
opaque Config.freeBiphCarrierPulse : Duration
opaque Config.freeBiphAddr : BitVec 5
opaque Config.freeBiphCmdPower : BitVec 6
opaque Config.freeNecButtons : ButtonTable
opaque Config.freePpBaseUnitLess1 : Fin 4294967295
opaque Config.freePpPreambleTicksLess1 : Fin 65535
opaque Config.freePpFixedCode : BitVec 32
opaque Config.freePpKeyUp : Byte
opaque Config.freePpKeyDown : Byte
opaque Config.freePpKeyCancel : Byte

/-- The configuration of the block that `State.reset` describes: the spec's defaults (`CAP` = 154,
`IDX_W` = 16, `DUR_W` = 32, `PP_SHIFT` = 5, `PP_RETRY_DEFAULT` = 5, R4) and the free constant for every OPEN parameter. -/
def Config.atReset : Config where
  cap := 154
  idxW := 16
  durW := 32
  tbUnit := Config.freeTbUnit
  tokenWait := Config.freeTokenWait
  necSlotPeriod := BitVec.ofNat 32 ((Config.freeNecBaseUnitLess4.val + 4) / 4)
  necBaseUnit := BitVec.ofNat 32 (Config.freeNecBaseUnitLess4.val + 4)
  necCarrierPeriod := Config.freeNecCarrierPeriod
  necCarrierPulse := Config.freeNecCarrierPulse
  biphSlotPeriod := BitVec.ofNat 32 (Config.freeBiphSlotPeriodLess1.val + 1)
  biphCarrierPeriod := Config.freeBiphCarrierPeriod
  biphCarrierPulse := Config.freeBiphCarrierPulse
  biphAddr := Config.freeBiphAddr
  biphCmdPower := Config.freeBiphCmdPower
  necButtons := Config.freeNecButtons
  ppBaseUnit := BitVec.ofNat 32 (Config.freePpBaseUnitLess1.val + 1)
  ppPreambleTicks := BitVec.ofNat 16 (Config.freePpPreambleTicksLess1.val + 1)
  ppFixedCode := Config.freePpFixedCode
  ppShift := 5
  ppKeyUp := Config.freePpKeyUp
  ppKeyDown := Config.freePpKeyDown
  ppKeyCancel := Config.freePpKeyCancel
  ppRetryDefault := 5

end Sys2Proof
end

