-- ==== Sys2Proof/Machine/State.lean ====
section
/-! DEFINITION. The state of the block (R20 to R38, R43), its observation (R45), the inputs of the outside
world as plain data, the reasons a step can stop, and the state after reset (R46). -/

namespace Sys2Proof.Machine

/-- The response codes (R86). -/
inductive RespCode where
  | ok
  | unsupported
  | busy
  | bufferOverflow
  | hwError
  | illegal
deriving DecidableEq, Repr

/-- One response on the command port (R86). -/
structure Response where
  code : RespCode
  data : Word
deriving DecidableEq, Repr

/-- An operation on the carrier-modulated channel (R227). -/
inductive ChanOp where
  /-- `ChanCfg(p)`: carrier period `p`, pulse width zero. -/
  | cfg (period : Duration)
  /-- `ChanPulse(w)`: pulse width `w`. -/
  | pulse (width : Duration)
deriving DecidableEq, Repr

/-- `pp_phase` (R33). -/
inductive PpPhase where
  | idle
  | preamble
  | data
deriving DecidableEq, Repr

/-- `errlog` (R43): the three sticky bits. -/
structure ErrLog where
  bsTickErr : Bool
  ppTickErr : Bool
  bsOverrun : Bool
deriving DecidableEq, Repr

/-- The staging Slot Sequence (R21, R22, R110): `stg` has `CAP` cells (`Memory.wf`). -/
structure Staging where
  /-- `stg[0 .. CAP-1]`, cell 0 first, `true` for on. -/
  cells : List Bool
  /-- `stg_fill`. -/
  fill : SlotIndex
deriving DecidableEq, Repr

/-- The registers of the Burst Sequencer (R23 to R31). -/
structure Burst where
  /-- `act[0 .. CAP-1]`, the active Slot Sequence (R23). -/
  act : List Bool
  /-- `token`, held when `true` (R24). -/
  token : Bool
  /-- `bs_cursor` (R25). -/
  cursor : SlotIndex
  /-- `bs_len` (R26). -/
  len : SlotIndex
  /-- `bs_pulse` (R27). -/
  pulse : Duration
  /-- `bs_slot_period` (R28). -/
  slotPeriod : Duration
  /-- `bs_run` (R29). -/
  run : Bool
  /-- `bs_pend` (R30). -/
  pend : Bool
  /-- `bs_wait` (R31). -/
  wait : Bool
  /-- `bs_wait_sp` (R31). -/
  waitSp : Duration
  /-- `bs_wait_cp` (R31). -/
  waitCp : Duration
  /-- `bs_wait_pw` (R31). -/
  waitPw : Duration
deriving DecidableEq, Repr

/-- The registers of the Pulse-Pattern Transmitter (R33 to R36). -/
structure PulsePattern where
  /-- `pp_phase`. -/
  phase : PpPhase
  /-- `pp_pre`. -/
  pre : BitVec 16
  /-- `pp_bit`. -/
  bit : BitVec 5
  /-- `pp_sub`. -/
  sub : BitVec 2
  /-- `pp_payload` (R34). -/
  payload : BitVec 24
  /-- `pp_retries` (R35). -/
  retries : Byte
  /-- `pp_run` (R36). -/
  run : Bool
deriving DecidableEq, Repr

/-- The channel shadows (R37). -/
structure ChannelShadow where
  /-- `ch_period`. -/
  period : Duration
  /-- `ch_pulse`. -/
  pulse : Duration
deriving DecidableEq, Repr

/-- What an observer sees (R45), oldest first, and the packets the port has accepted. No rule reads it.
`accepted` is the model's own (DESIGN CHOICE, log 6). -/
structure Observation where
  accepted : List Packet
  responses : List Response
  chanTrace : List (ChanOp × Answer)
  pinTrace : List (Bool × Answer)
deriving DecidableEq, Repr

/-- The inputs of the outside world, oldest first, and how many free values have been drawn where a list
had run out. All of it is the model's own (DESIGN CHOICE, log 2, log 3, log 4). -/
structure Environment where
  /-- The packets the host offers at the command port, in its order (R87). -/
  port : List Packet
  /-- The steps the machine is to take next (R9, R220). -/
  sched : List Move
  /-- The answers of the channel to its next operations (R227). -/
  chanAnswers : List Answer
  /-- The answers of the pin to its next operations (R228). -/
  pinAnswers : List Answer
  /-- Free moves drawn so far. -/
  moveNo : Nat
  /-- Free channel answers drawn so far. -/
  chanNo : Nat
  /-- Free pin answers drawn so far. -/
  pinNo : Nat
deriving DecidableEq, Repr

/-- The state of the machine. -/
structure State where
  /-- The configuration, which no step changes (R44; log 1). -/
  cfg : Config
  /-- The staging Slot Sequence (R21, R22). -/
  stg : Staging
  /-- The Burst Sequencer (R23 to R31). -/
  bs : Burst
  /-- `toggle` (R32). -/
  toggle : Bool
  /-- The Pulse-Pattern Transmitter (R33 to R36). -/
  pp : PulsePattern
  /-- The channel shadows (R37). -/
  ch : ChannelShadow
  /-- `pin`, high when `true` (R38). -/
  pin : Bool
  /-- The sticky log (R43). -/
  errlog : ErrLog
  /-- The observation (R45). -/
  obs : Observation
  /-- The inputs of the outside world. -/
  env : Environment
deriving DecidableEq, Repr

/-- Why a step can stop. The block itself has no stop (R210: an error is a response); each reason is an
access to something that does not exist, raised only in states that break the invariants of R39. All
are SAFE: the model stops where the spec says nothing. -/
inductive Fault where
  /-- A slot index outside its buffer (R60: valid addresses are 0 to `CAP-1`). Raised by Append when
  `stg_fill > CAP`, by SEQ.GET and by the slot step of BS_WORK when the index names no cell. Safe. Log 7. -/
  | slotOutside
  /-- A PP_TICK with `pp_run = 1` and `pp_phase` IDLE, which R174 excludes. Raised by PP_TICK. Safe. Log 8. -/
  | ppTickWhileIdle
  /-- A data bit index above 23 (R33, R177). Raised by PP_TICK. Safe. Log 8. -/
  | ppBitOutside
deriving DecidableEq, Repr

/-- Why an instruction has no meaning. -/
inductive Refusal where
  /-- The instruction has no meaning yet; raised only by an arm of `exec`, and no arm raises it. Safe. -/
  | notModelled (mnemonic : String)
deriving DecidableEq, Repr

/-- The state after reset of a block with configuration `cfg` (R46). -/
def State.resetWith (cfg : Config) : State where
  cfg := cfg
  stg := { cells := List.replicate cfg.cap.toNat false, fill := 0 }
  bs :=
    { act := List.replicate cfg.cap.toNat false, token := false, cursor := 0, len := 0, pulse := 0,
      slotPeriod := 0, run := false, pend := false, wait := false, waitSp := 0, waitCp := 0, waitPw := 0 }
  toggle := false
  pp := { phase := .idle, pre := 0, bit := 0, sub := 0, payload := 0, retries := 0, run := false }
  ch := { period := 0, pulse := 0 }
  pin := false
  errlog := { bsTickErr := false, ppTickErr := false, bsOverrun := false }
  obs := { accepted := [], responses := [], chanTrace := [], pinTrace := [] }
  env := { port := [], sched := [], chanAnswers := [], pinAnswers := [], moveNo := 0, chanNo := 0, pinNo := 0 }

/-- The machine right after reset (R46), with the configuration of `Config.atReset` and no input given. -/
def State.reset : State := State.resetWith Config.atReset

end Sys2Proof.Machine
end

