-- ==== Sys2Proof/Machine/Ops.lean ====
section
/-! DEFINITION. The shared operations over the slot buffers, the devices, the log and the command port,
each written once: `respond` (R6, R86) is what this block has for raising an exception, and there is
nothing to return from (R210, R222). -/

namespace Sys2Proof.Machine

/-- What a step or a meaning answers. -/
abbrev Result := Host.Outcome State Fault Refusal

/-! ### Responses (R6, R86, R210) -/

/-- `respond(code, data)`: complete the current command. -/
def State.respond (code : RespCode) (data : Word) (s : State) : State :=
  { s with obs := { s.obs with responses := s.obs.responses ++ [⟨code, data⟩] } }

/-- An error result: the command answers `code` with data zero (R86), and nothing else of the state is
touched: no saved state, no cause register, no redirection (R210, R216). -/
def State.fail (code : RespCode) (s : State) : State := s.respond code 0

/-! ### The sticky log (R43) -/

/-- `log(BS_TICK_ERR)`. -/
def State.logBsTickErr (s : State) : State := { s with errlog := { s.errlog with bsTickErr := true } }

/-- `log(PP_TICK_ERR)`. -/
def State.logPpTickErr (s : State) : State := { s with errlog := { s.errlog with ppTickErr := true } }

/-- `log(BS_OVERRUN)`. -/
def State.logBsOverrun (s : State) : State := { s with errlog := { s.errlog with bsOverrun := true } }

/-! ### The channel (R227) -/

/-- The answer the channel gives to its next operation: the oldest one the environment holds, a free
value when it holds none. -/
def State.chanAnswer (s : State) : Answer :=
  match s.env.chanAnswers with
  | r :: _ => r
  | [] => Config.freeChanAnswer s.env.chanNo

/-- The environment after the channel has answered once. -/
def Environment.afterChan (e : Environment) : Environment :=
  match e.chanAnswers with
  | _ :: rest => { e with chanAnswers := rest }
  | [] => { e with chanNo := e.chanNo + 1 }

/-- One channel operation is issued and answered: it stands in the channel trace with its answer (R45). -/
def State.chanIssue (op : ChanOp) (s : State) : State :=
  { s with
    obs := { s.obs with chanTrace := s.obs.chanTrace ++ [(op, s.chanAnswer)] }
    env := s.env.afterChan }

/-- `ChanPulse(w)` as BS_WORK uses it (R128, R129, R130): the shadow takes `w` on `ok`, BS_TICK_ERR is
logged on `err`. -/
def State.chanPulse (w : Duration) (s : State) : State :=
  match s.chanAnswer with
  | .ok => { s.chanIssue (.pulse w) with ch := { s.ch with pulse := w } }
  | .err => (s.chanIssue (.pulse w)).logBsTickErr

/-! ### The pin (R228, R174) -/

/-- The answer the pin gives to its next operation. -/
def State.pinAnswer (s : State) : Answer :=
  match s.env.pinAnswers with
  | r :: _ => r
  | [] => Config.freePinAnswer s.env.pinNo

/-- The environment after the pin has answered once. -/
def Environment.afterPin (e : Environment) : Environment :=
  match e.pinAnswers with
  | _ :: rest => { e with pinAnswers := rest }
  | [] => { e with pinNo := e.pinNo + 1 }

/-- One pin operation is issued and answered. -/
def State.pinIssue (level : Bool) (s : State) : State :=
  { s with
    obs := { s.obs with pinTrace := s.obs.pinTrace ++ [(level, s.pinAnswer)] }
    env := s.env.afterPin }

/-- `PinWrite(l)` (R174, R180): the shadow takes `l` on `ok`, PP_TICK_ERR is logged on `err`. -/
def State.pinWrite (level : Bool) (s : State) : State :=
  match s.pinAnswer with
  | .ok => { s.pinIssue level with pin := level }
  | .err => (s.pinIssue level).logPpTickErr

/-! ### The slot buffers (R60 to R63, R112) -/

/-- The form a slot buffer has: exactly `CAP` cells (R21, R23). -/
def Memory.wf (cap : SlotIndex) (cells : List Bool) : Bool := cells.length == cap.toNat

/-- Read one slot; `none` for an index that names no cell (R60). -/
def readSlot (cells : List Bool) (i : SlotIndex) : Option Bool := cells[i.toNat]?

/-- Write one slot of a buffer. -/
def writeSlot (cells : List Bool) (i : SlotIndex) (v : Bool) : List Bool := cells.set i.toNat v

/-- How a run of Appends ends. -/
inductive Appended where
  /-- Every slot was appended. -/
  | done (s : State)
  /-- BufferOverflow was raised in state `s`; the slots appended before stay (R112). -/
  | overflow (s : State)
  /-- `stg_fill` lies above `CAP`, where there is no cell (log 7). -/
  | outside
deriving DecidableEq, Repr

/-- `Append(v)` (R112), the only write to the staging buffer. -/
def append (v : Bool) (s : State) : Appended :=
  if s.stg.fill = s.cfg.cap then
    .overflow s
  else if s.stg.fill < s.cfg.cap then
    .done { s with stg := { cells := writeSlot s.stg.cells s.stg.fill v, fill := s.stg.fill + 1 } }
  else
    .outside

/-- A run of Appends, in order; the first that fails ends it (R112). -/
def appendAll : List Bool → State → Appended
  | [], s => .done s
  | v :: vs, s =>
    match append v s with
    | .done s' => appendAll vs s'
    | .overflow s' => .overflow s'
    | .outside => .outside

/-- Empty the staging sequence: `stg_fill <- 0`, the cells keep their values (R111). -/
def State.clearStaging (s : State) : State := { s with stg := { s.stg with fill := 0 } }

/-- The response of a command that ends with a run of Appends (R112, R113, R150, R160). -/
def Appended.toResult : Appended → Result
  | .done s => .next (s.respond .ok 0)
  | .overflow s => .next (s.fail .bufferOverflow)
  | .outside => .fault .slotOutside

/-! ### Which step comes next (R8, R9, R220) -/

/-- The step the schedule names next, and a free choice when it names none (log 2). -/
def State.nextMove (s : State) : Move :=
  match s.env.sched with
  | m :: _ => m
  | [] => Config.freeMove s.env.moveNo

/-- The state once that choice has been taken. -/
def State.afterMove (s : State) : State :=
  match s.env.sched with
  | _ :: rest => { s with env := { s.env with sched := rest } }
  | [] => { s with env := { s.env with moveNo := s.env.moveNo + 1 } }

end Sys2Proof.Machine
end

