-- ==== Sys2Proof/Machine/Operands.lean ====
section
/-! DEFINITION. The values the commands compute from their operands and the configuration: the protocol
frames as slot sequences (R89 to R92, R150, R160), the biphase code (R161), the key code and the
pulse-pattern payload (R172, R173), the pin level of a data tick (R175), the projector's button table. -/

namespace Sys2Proof.Machine

/-! ### NEC-family frame (R89, R90) -/

/-- The slots of one bit: `10` for 0, `1000` for 1 (R90). -/
def necSymbol (bit : Bool) : List Bool :=
  if bit then [true, false, false, false] else [true, false]

/-- The slots of one byte, bit 0 first (R66, R89). -/
def necByte (x : Byte) : List Bool := (List.range 8).flatMap fun i => necSymbol (x.getLsbD i)

/-- The slots ENC.NEC appends, in order (R150): calibration burst, space, the four bytes, stop marker. -/
def necFrame (addrLow addrHigh command : Byte) : List Bool :=
  List.replicate 16 true ++ List.replicate 8 false ++
    necByte addrLow ++ necByte addrHigh ++ necByte command ++ necByte (~~~command) ++ [true, false]

/-- The projector's entry for a button (R196). -/
def necTriple (table : ButtonTable) : Button → Option NecTriple
  | .power => table.power
  | .up => table.up
  | .down => table.down
  | .cancel => table.cancel

/-! ### Biphase frame (R91, R92) -/

/-- `BiphaseCode(addr, cmd, t)` (R161): start bits 13:12, toggle 11, address 10:6, command 5:0. -/
def biphaseCode (addr : BitVec 5) (cmd : BitVec 6) (t : Bool) : BitVec 14 :=
  (0b11#2 ++ BitVec.ofBool t) ++ addr ++ cmd

/-- The slots of a biphase code: bit 13 first, each bit `b` as the pair `(not b, b)` (R67, R92). -/
def biphaseFrame (code : BitVec 14) : List Bool :=
  (List.range 14).flatMap fun k => [!code.getLsbD (13 - k), code.getLsbD (13 - k)]

/-! ### Pulse pattern (R172, R173, R175) -/

/-- `KeyCode(button)` (R172); POWER has none. -/
def keyCode (cfg : Config) : Button → Option Byte
  | .power => none
  | .up => some cfg.ppKeyUp
  | .down => some cfg.ppKeyDown
  | .cancel => some cfg.ppKeyCancel

/-- `PpPayload(key)` (R173): `trunc_24(((PP_FIXED_CODE & 0xFFFFF) << PP_SHIFT) | key)`, on naturals. -/
def ppPayload (cfg : Config) (key : Byte) : BitVec 24 :=
  BitVec.ofNat 24 (((cfg.ppFixedCode.toNat &&& 0xFFFFF) <<< cfg.ppShift) ||| key.toNat)

/-- `PpLevel(b, s)` (R175): `1000` for a 0 bit, `1110` for a 1 bit. -/
def ppLevel (b : Bool) (sub : BitVec 2) : Bool := decide (sub = 0) || (b && decide (sub < 3))

end Sys2Proof.Machine
end

