-- ==== Sys2Proof/Machine/BiphaseEncoder.lean ====
section
/-! DEFINITION. The Biphase (Manchester) encoder, command ENC.BIPH (R160). -/

namespace Sys2Proof.Machine

/-- `toggle <- not toggle` (R160, R32). -/
def State.flipToggle (s : State) : State := { s with toggle := !s.toggle }

/-- The code of a POWER press in state `s`, its toggle already flipped (R160, R161). -/
def State.powerCode (s : State) : BitVec 14 := biphaseCode s.cfg.biphAddr s.cfg.biphCmdPower s.toggle

/-- The body of a POWER encode after the flip: refill the staging sequence from empty (R160). -/
def refillBiphase (s : State) : Result :=
  (appendAll (biphaseFrame s.powerCode) s.clearStaging).toResult

/-- ENC.BIPH `button` (R160): the button test first (R164), then the flip, then the frame. -/
def execEncBiph (button : Button) (s : State) : Result :=
  match button with
  | .power => refillBiphase s.flipToggle
  | .up => .next (s.fail .unsupported)
  | .down => .next (s.fail .unsupported)
  | .cancel => .next (s.fail .unsupported)

end Sys2Proof.Machine
end

