-- ==== Sys2Proof/Machine/BurstSequencer.lean ====
section
/-! DEFINITION. The Burst Sequencer: the acquisition step ACQ (R122), the command BS.SEND (R121), and the
internal steps BS_GRANT (R124), BS_TIMEOUT (R125), BS_TICK (R126) and BS_WORK (R127 to R130). -/

namespace Sys2Proof.Machine

/-- What ACQ writes into the Burst Sequencer when the channel accepts the configuration (R122). -/
def State.acquired (sp pw : Duration) (s : State) : Burst :=
  { s.bs with
    token := true
    pulse := pw
    act := s.stg.cells
    len := s.stg.fill
    cursor := 0
    slotPeriod := sp
    pend := false
    run := true }

/-- `ACQ(sp, cp, pw)` (R122): one `ChanCfg(cp)`; on `err` HW_ERROR and nothing else changes, on `ok` the
whole transmission is set up in the same step and the command answers OK. -/
def acquire (sp cp pw : Duration) (s : State) : State :=
  match s.chanAnswer with
  | .err => (s.chanIssue (.cfg cp)).fail .hwError
  | .ok =>
    State.respond .ok 0
      { s.chanIssue (.cfg cp) with
        bs := s.acquired sp pw
        ch := { period := cp, pulse := 0 } }

/-- The wait registers take a request (R121, third branch). -/
def State.startWait (sp cp pw : Duration) (s : State) : State :=
  { s with bs := { s.bs with wait := true, waitSp := sp, waitCp := cp, waitPw := pw } }

/-- The wait registers are cleared (R124, R125). -/
def State.endWait (s : State) : State :=
  { s with bs := { s.bs with wait := false, waitSp := 0, waitCp := 0, waitPw := 0 } }

/-- BS.SEND (R121): ILLEGAL for slot period zero (R84 case 4), else acquire, answer BUSY, or wait. -/
def execBsSend (sp cp pw : Duration) (s : State) : Result :=
  if sp = 0 then .next (s.fail .illegal)
  else if s.bs.token = false then .next (acquire sp cp pw s)
  else if s.cfg.tokenWait = 0 then .next (s.fail .busy)
  else .next (s.startWait sp cp pw)

/-- BS_GRANT (R124): the waiting request gets the token. -/
def bsGrant (s : State) : State := acquire s.bs.waitSp s.bs.waitCp s.bs.waitPw s.endWait

/-- BS_TIMEOUT (R125): the waiting request is answered BUSY and forgotten. -/
def bsTimeout (s : State) : State := s.endWait.fail .busy

/-- BS_TICK (R126): mark work pending; a tick that finds work pending is dropped and logged. -/
def bsTick (s : State) : State :=
  if s.bs.pend = false then { s with bs := { s.bs with pend := true } } else s.logBsOverrun

/-- The slot step of BS_WORK for a slot of value `v` (R128, R130): one `ChanPulse`, then the cursor
advances whatever the channel answered. -/
def slotStep (v : Bool) (s : State) : State :=
  let s' := s.chanPulse (if v then s.bs.pulse else 0)
  { s' with bs := { s'.bs with cursor := s'.bs.cursor + 1 } }

/-- The end step of BS_WORK (R129, R130): timer stopped, pulse width zero, token released. -/
def endStep (s : State) : State :=
  let s' := ({ s with bs := { s.bs with run := false } } : State).chanPulse 0
  { s' with bs := { s'.bs with token := false } }

/-- `bs_pend <- 0`. -/
def State.clearPend (s : State) : State := { s with bs := { s.bs with pend := false } }

/-- BS_WORK (R127): clear the pending bit, then the slot step or the end step. -/
def bsWork (s : State) : Result :=
  if s.bs.cursor < s.bs.len then
    match readSlot s.bs.act s.bs.cursor with
    | some v => .next (slotStep v s.clearPend)
    | none => .fault .slotOutside
  else
    .next (endStep s.clearPend)

end Sys2Proof.Machine
end

