-- ==== Sys2Proof/Machine/NecEncoder.lean ====
section
/-! DEFINITION. The NEC-family encoder, command ENC.NEC (R150). -/

namespace Sys2Proof.Machine

/-- ENC.NEC (R150): refill the staging sequence from empty with the NEC-family frame. -/
def execEncNec (addrLow addrHigh command : Byte) (s : State) : Result :=
  (appendAll (necFrame addrLow addrHigh command) s.clearStaging).toResult

end Sys2Proof.Machine
end

