-- ==== Sys2Proof/Machine/PulsePattern.lean ====
section
/-! DEFINITION. The Pulse-Pattern Transmitter: the command PP.PRESS (R171) and the step PP_TICK (R174,
R176 to R178). -/

namespace Sys2Proof.Machine

/-- The registers at the start of the frame sequence of one key (R171). -/
def startFrames (cfg : Config) (key : Byte) : PulsePattern where
  phase := .preamble
  pre := 0
  bit := 0
  sub := 0
  payload := ppPayload cfg key
  retries := cfg.ppRetryDefault
  run := true

/-- PP.PRESS `button` (R171): UNSUPPORTED before BUSY (R219), else the frame sequence starts. -/
def execPpPress (button : Button) (s : State) : Result :=
  match keyCode s.cfg button with
  | none => .next (s.fail .unsupported)
  | some key =>
    if s.pp.phase ≠ .idle then .next (s.fail .busy)
    else .next (({ s with pp := startFrames s.cfg key } : State).respond .ok 0)

/-- `FrameEnd` (R178). -/
def frameEnd (p : PulsePattern) : PulsePattern :=
  if p.retries ≠ 0 then { p with bit := 0, retries := p.retries - 1, phase := .preamble }
  else { p with bit := 0, run := false, phase := .idle }

/-- The counters after a preamble tick (R176); the comparison is on naturals (R7). -/
def afterPreambleTick (ticks : BitVec 16) (p : PulsePattern) : PulsePattern :=
  if p.pre.toNat + 1 < ticks.toNat then { p with pre := p.pre + 1 }
  else { p with pre := 0, phase := .data }

/-- The counters after a data tick (R177). -/
def afterDataTick (p : PulsePattern) : PulsePattern :=
  if p.sub < 3 then { p with sub := p.sub + 1 }
  else if p.bit < 23 then { p with sub := 0, bit := p.bit + 1 }
  else frameEnd { p with sub := 0 }

/-- One pin write, then the counters, in one step (R174, R180). -/
def State.ppOutput (level : Bool) (p : PulsePattern) (s : State) : State :=
  { s.pinWrite level with pp := p }

/-- PP_TICK (R174): by phase R176 or R177. -/
def ppTick (s : State) : Result :=
  match s.pp.phase with
  | .idle => .fault .ppTickWhileIdle
  | .preamble =>
    .next (s.ppOutput (decide (s.pp.pre = 0)) (afterPreambleTick s.cfg.ppPreambleTicks s.pp))
  | .data =>
    if s.pp.bit ≤ 23 then
      .next (s.ppOutput (ppLevel (s.pp.payload.getLsbD (23 - s.pp.bit.toNat)) s.pp.sub) (afterDataTick s.pp))
    else
      .fault .ppBitOutside

end Sys2Proof.Machine
end

