-- ==== Sys2Proof/Machine/SlotSequence.lean ====
section
/-! DEFINITION. The Slot Sequence commands SEQ.CLR (R111), SEQ.PUSH (R113) and SEQ.GET (R114). -/

namespace Sys2Proof.Machine

/-- SEQ.CLR (R111). -/
def execSeqClr (s : State) : Result := .next (s.clearStaging.respond .ok 0)

/-- SEQ.PUSH `v` (R113). -/
def execSeqPush (v : Bool) (s : State) : Result := (append v s).toResult

/-- SEQ.GET `idx` (R114): the staged slot, ILLEGAL at or above `stg_fill` (R84 case 5). -/
def execSeqGet (idx : SlotIndex) (s : State) : Result :=
  if idx < s.stg.fill then
    match readSlot s.stg.cells idx with
    | some v => .next (s.respond .ok ((BitVec.ofBool v).setWidth 32))
    | none => .fault .slotOutside
  else
    .next (s.fail .illegal)

end Sys2Proof.Machine
end

