-- ==== Sys2Proof/Machine/Flags.lean ====
section
/-! DEFINITION. The status window (R40 to R43) as a view of the state, and the response codes as bytes
(R86). -/

namespace Sys2Proof.Machine

/-- The 8-bit code of a response (R86). -/
def RespCode.byte : RespCode → Byte
  | .ok => 0x00
  | .unsupported => 0x01
  | .busy => 0x02
  | .bufferOverflow => 0x03
  | .hwError => 0x04
  | .illegal => 0x05

/-- The 2-bit encoding of `pp_phase` (R33). -/
def PpPhase.bits : PpPhase → BitVec 2
  | .idle => 0
  | .preamble => 1
  | .data => 2

/-- STATUS (R41): bit 0 TOKEN, 1 BS_RUN, 2 BS_PEND, 3 TOGGLE, 5:4 PP_PHASE, 6 PP_RUN, 7 PIN, 31:8 zero. -/
def State.statusWord (s : State) : Word :=
  0#24 ++ BitVec.ofBool s.pin ++ BitVec.ofBool s.pp.run ++ s.pp.phase.bits ++ BitVec.ofBool s.toggle ++
    BitVec.ofBool s.bs.pend ++ BitVec.ofBool s.bs.run ++ BitVec.ofBool s.bs.token

/-- ERRLOG (R43): bit 0 BS_TICK_ERR, 1 PP_TICK_ERR, 2 BS_OVERRUN, 31:3 zero. -/
def ErrLog.word (e : ErrLog) : Word :=
  0#29 ++ BitVec.ofBool e.bsOverrun ++ BitVec.ofBool e.ppTickErr ++ BitVec.ofBool e.bsTickErr

/-- PP_COUNT (R42): bits 7:0 `pp_retries`, 12:8 `pp_bit`, 14:13 `pp_sub`, 15 zero, 31:16 `pp_pre`. -/
def PulsePattern.countWord (p : PulsePattern) : Word :=
  p.pre ++ 0#1 ++ p.sub ++ p.bit ++ p.retries

/-- `StatusWindow(reg)` (R40); none above `0x0B`. -/
def State.statusWindow (s : State) (reg : Byte) : Option Word :=
  if reg = 0x00 then some s.statusWord
  else if reg = 0x01 then some s.errlog.word
  else if reg = 0x02 then some (s.bs.cursor.setWidth 32)
  else if reg = 0x03 then some (s.bs.len.setWidth 32)
  else if reg = 0x04 then some s.bs.pulse
  else if reg = 0x05 then some s.bs.slotPeriod
  else if reg = 0x06 then some s.ch.period
  else if reg = 0x07 then some s.ch.pulse
  else if reg = 0x08 then some (s.stg.fill.setWidth 32)
  else if reg = 0x09 then some (s.pp.payload.setWidth 32)
  else if reg = 0x0A then some s.pp.countWord
  else if reg = 0x0B then some (s.cfg.cap.setWidth 32)
  else none

end Sys2Proof.Machine
end

