-- ==== Sys2Proof/Machine/System.lean ====
section
/-! DEFINITION. The system commands NOP (R190) and RD (R191). -/

namespace Sys2Proof.Machine

/-- NOP (R190): `respond(OK, 0)`. -/
def execNop (s : State) : Result := .next (s.respond .ok 0)

/-- RD `reg` (R191): the status window register, ILLEGAL above `0x0B` (R84 case 3). -/
def execRd (reg : Byte) (s : State) : Result :=
  match s.statusWindow reg with
  | some data => .next (s.respond .ok data)
  | none => .next (s.fail .illegal)

end Sys2Proof.Machine
end

