-- ==== Sys2Proof/Machine/Dispatch.lean ====
section
/-! DEFINITION. The meaning of each command, one arm per constructor. -/

namespace Sys2Proof.Machine

def exec (i : Instr) (s : State) : Host.Outcome State Fault Refusal :=
  match i with
  | .nop => Sys2Proof.Machine.execNop s
  | .rd reg => Sys2Proof.Machine.execRd reg s
  | .seqClr => Sys2Proof.Machine.execSeqClr s
  | .seqPush v => Sys2Proof.Machine.execSeqPush v s
  | .seqGet idx => Sys2Proof.Machine.execSeqGet idx s
  | .encNec al ah cmd => Sys2Proof.Machine.execEncNec al ah cmd s
  | .encBiph button => Sys2Proof.Machine.execEncBiph button s
  | .bsSend sp cp pw => Sys2Proof.Machine.execBsSend sp cp pw s
  | .ppPress button => Sys2Proof.Machine.execPpPress button s

end Sys2Proof.Machine
end

