-- ==== Sys2Proof/Machine/Agents.lean ====
section
/-! DEFINITION. The steps of the agents of R8: when each is enabled and what it does. The command port is
R87; RESET is R240 to R243. -/

namespace Sys2Proof.Machine

/-- The port has accepted packet `p`: an illegal packet is answered ILLEGAL with no other change (R84), a
command runs as one atomic step (R87). -/
def runPacket (p : Packet) (s : State) : Result :=
  match decode p with
  | .illegal _ => .next (s.fail .illegal)
  | .command i => exec i s

/-- The port takes packet `p`, the oldest the host offers, `rest` being the others. -/
def State.takePacket (p : Packet) (rest : List Packet) (s : State) : State :=
  { s with
    obs := { s.obs with accepted := s.obs.accepted ++ [p] }
    env := { s.env with port := rest } }

/-- The HOST step: the port accepts the oldest offered packet (R87). -/
def hostStep (s : State) : Result :=
  match s.env.port with
  | [] => .next s
  | p :: rest => runPacket p (s.takePacket p rest)

/-- RESET (R241): every variable at its reset value, no device operation, no response. The outside
world's inputs are not the block's and stay (log 17). -/
def resetStep (s : State) : State := { State.resetWith s.cfg with env := s.env }

/-- When a step is enabled (R87, R124, R125, R126, R127, R174, R240). -/
def enabled (m : Move) (s : State) : Bool :=
  match m with
  | .host => !s.bs.wait && !s.env.port.isEmpty
  | .bsTick => s.bs.run
  | .bsWork => s.bs.pend
  | .bsGrant => s.bs.wait && !s.bs.token
  | .bsTimeout => s.bs.wait
  | .ppTick => s.pp.run
  | .reset => true

/-- What an enabled step does. -/
def perform (m : Move) (s : State) : Result :=
  match m with
  | .host => hostStep s
  | .bsTick => .next (bsTick s)
  | .bsWork => bsWork s
  | .bsGrant => .next (bsGrant s)
  | .bsTimeout => .next (bsTimeout s)
  | .ppTick => ppTick s
  | .reset => .next (resetStep s)

/-- One chosen step: what it does where it is enabled, nothing where it is not (DESIGN CHOICE, log 9). -/
def takeMove (m : Move) (s : State) : Result := if enabled m s then perform m s else .next s

/-- The machine with packet `p` offered first and the HOST step chosen next, no command waiting for an
answer: what a fetch of `p` needs (log 4). -/
def State.offerFirst (p : Packet) (s : State) : State :=
  { s.endWait with env := { s.env with port := p :: s.env.port, sched := .host :: s.env.sched } }

end Sys2Proof.Machine
end

