-- ==== Sys2Proof/Machine/Step.lean ====
section
/-! DEFINITION. One step of the machine: the agent that the schedule names (or a free choice) takes its
step (R8, R9). -/

namespace Sys2Proof.Machine

/-- One step. -/
def step (s : State) : Host.Outcome State Fault Refusal := takeMove s.nextMove s.afterMove

/-- `s` with the instruction of a table word offered at the port and the HOST step chosen, so that the
next step accepts and runs exactly it. -/
def State.withFetchWord (s : State) (nbits w : Nat) : State := s.offerFirst (packetOfTableWord nbits w)

end Sys2Proof.Machine
end

