-- ==== Sys2Proof/Machine/Facade.lean ====
section
/-! DEFINITION. The Remote Control Facade (R96, R195 to R199): three procedures a host runs over the
command port, PRESS.PROJECTOR, PRESS.DISPLAY and PRESS.SCREEN. They are surrounding software, not
commands of the block. A procedure is given how many steps of the machine the host waits, at most, for
answers that do not come at once (log 14). -/

namespace Sys2Proof.Machine

/-- The closed set of devices (R195), named by what they control. -/
inductive Device where
  | projector
  | display
  | screen
deriving DecidableEq, Repr

/-- How a procedure stands when it returns to the host. -/
inductive FacadeResult where
  /-- Its result: the first response that is not OK, or OK (R195). -/
  | done (code : RespCode)
  /-- No result, and none will come: RESET dropped the waiting command without a response (R241). -/
  | dropped
  /-- No result yet: a command waits for its answer, or for the answer to an earlier command (R87), and
  the host's steps are used up. -/
  | unanswered
deriving DecidableEq, Repr

/-- The machine after commands of a procedure, what the host knows, and the steps it has left. -/
structure Press where
  left : Nat
  state : State
  result : FacadeResult
deriving DecidableEq, Repr

/-- Go on with the value of an outcome; a stop of the machine stops the procedure. -/
def andThen {α β : Type} (r : Host.Outcome α Fault Refusal) (f : α → Host.Outcome β Fault Refusal) :
    Host.Outcome β Fault Refusal :=
  match r with
  | .next x => f x
  | .fault r => .fault r
  | .refused r => .refused r

/-- The machine runs, by its own schedule, until no accepted command is unanswered, for `k` steps at most:
a waiting BS.SEND is answered by BS_GRANT or BS_TIMEOUT (R87, R123) or dropped by RESET (R241). -/
def untilAnswered : Nat → State → Host.Outcome (Nat × State) Fault Refusal
  | 0, s => .next (0, s)
  | k + 1, s => if s.bs.wait then andThen (step s) (untilAnswered k) else .next (k + 1, s)

/-- What the host knows of its last accepted command: the response given to it, if it has one. After a
RESET the response list is empty (log 6). -/
def State.lastAnswer (s : State) : FacadeResult :=
  if s.bs.wait then .unanswered
  else match s.obs.responses.getLast? with
    | some r => .done r.code
    | none => .dropped

/-- The port accepts the host's command and runs it (R87). Packets already offered in `env.port` stay offered: a
macro's commands go before them. DESIGN CHOICE, log 14: the spec does not say how a macro stands to
packets offered earlier. -/
def acceptCommand (i : Instr) (s : State) : Result :=
  runPacket (encode i) (s.takePacket (encode i) s.env.port)

/-- The host issues one command and takes its response, at once or when the wait ends (R87, R195); the port
accepts nothing while an earlier command is unanswered. -/
def issue (i : Instr) (k : Nat) (s : State) : Host.Outcome Press Fault Refusal :=
  andThen (untilAnswered k s) fun opened =>
    if opened.2.bs.wait then .next ⟨opened.1, opened.2, .unanswered⟩
    else
      andThen (acceptCommand i opened.2) fun accepted =>
        andThen (untilAnswered opened.1 accepted) fun answered =>
          .next ⟨answered.1, answered.2, answered.2.lastAnswer⟩

/-- Commands in order; the first response that is not OK ends the procedure (R195). -/
def issueAll : List Instr → Nat → State → Host.Outcome Press Fault Refusal
  | [], k, s => .next ⟨k, s, .done .ok⟩
  | i :: rest, k, s =>
    andThen (issue i k s) fun p =>
      if p.result = .done .ok then issueAll rest p.left p.state else .next p

/-- PRESS.PROJECTOR `button` (R196). -/
def pressProjector (button : Button) (k : Nat) (s : State) : Host.Outcome Press Fault Refusal :=
  match necTriple s.cfg.necButtons button with
  | none => .next ⟨k, s, .done .unsupported⟩
  | some t =>
    issueAll
      [.encNec t.addrLow t.addrHigh t.command,
       .bsSend s.cfg.necSlotPeriod s.cfg.necCarrierPeriod s.cfg.necCarrierPulse] k s

/-- PRESS.DISPLAY `button` (R197). -/
def pressDisplay (button : Button) (k : Nat) (s : State) : Host.Outcome Press Fault Refusal :=
  issueAll
    [.encBiph button,
     .bsSend s.cfg.biphSlotPeriod s.cfg.biphCarrierPeriod s.cfg.biphCarrierPulse] k s

/-- PRESS.SCREEN `button` (R198). -/
def pressScreen (button : Button) (k : Nat) (s : State) : Host.Outcome Press Fault Refusal :=
  issueAll [.ppPress button] k s

/-- `press_button(device, button)` (R96, R195). -/
def pressButton (device : Device) (button : Button) (k : Nat) (s : State) : Host.Outcome Press Fault Refusal :=
  match device with
  | .projector => pressProjector button k s
  | .display => pressDisplay button k s
  | .screen => pressScreen button k s

end Sys2Proof.Machine
end

