-- ==== Sys2Proof/Machine/Text.lean ====
section
/-! DEFINITION. The textual form of a command and of an expected response (R95, R40 for register names),
numbers in decimal. The block has no toolchain; no rule of the machine reads a text. -/

namespace Sys2Proof.Machine

/-- A Button by name. -/
def buttonText : Button → String
  | .power => "POWER"
  | .up => "UP"
  | .down => "DOWN"
  | .cancel => "CANCEL"

/-- The names of the status window, index 0 first (R40). -/
def statusNames : List String :=
  ["STATUS", "ERRLOG", "BS_CURSOR", "BS_LEN", "BS_PULSE", "BS_SLOT_PERIOD", "CH_PERIOD", "CH_PULSE",
   "STG_FILL", "PP_PAYLOAD", "PP_COUNT", "CAPACITY"]

/-- A status register by name where it has one, by index otherwise. -/
def statusText (reg : Byte) : String := (statusNames[reg.toNat]?).getD (toString reg.toNat)

/-- The mnemonic and its operands, separated by commas (R95). -/
def instrText : Instr → String
  | .nop => "NOP"
  | .rd reg => "RD " ++ statusText reg
  | .seqClr => "SEQ.CLR"
  | .seqPush v => "SEQ.PUSH " ++ (if v then "1" else "0")
  | .seqGet idx => "SEQ.GET " ++ toString idx.toNat
  | .encNec al ah cmd =>
    "ENC.NEC " ++ toString al.toNat ++ ", " ++ toString ah.toNat ++ ", " ++ toString cmd.toNat
  | .encBiph button => "ENC.BIPH " ++ buttonText button
  | .bsSend sp cp pw =>
    "BS.SEND " ++ toString sp.toNat ++ ", " ++ toString cp.toNat ++ ", " ++ toString pw.toNat
  | .ppPress button => "PP.PRESS " ++ buttonText button

/-- The name of a response code (R86). -/
def codeText : RespCode → String
  | .ok => "OK"
  | .unsupported => "UNSUPPORTED"
  | .busy => "BUSY"
  | .bufferOverflow => "BUFFER_OVERFLOW"
  | .hwError => "HW_ERROR"
  | .illegal => "ILLEGAL"

/-- A line that states the expected response: `<command> -> <CODE>, <data>` (R95). -/
def expectText (i : Instr) (r : Response) : String :=
  instrText i ++ " -> " ++ codeText r.code ++ ", " ++ toString r.data.toNat

end Sys2Proof.Machine
end

