-- ==== Sys2Proof/Machine/Timing.lean ====
section
/-! DEFINITION. The timing rules R250 and R255 to R259, kept apart from the untimed step (R10): a clock
that stands beside a run and says which steps may happen when. No rule of the machine reads it. -/

namespace Sys2Proof.Machine

/-- What the timing rules have to remember of a run, in Duration units. -/
structure Clock where
  /-- The time of the last step. -/
  now : Nat
  /-- `t0` of R255: the time of the last acquisition step. -/
  burstStart : Nat
  /-- How many BS_TICKs have happened since `t0`. -/
  burstTicks : Nat
  /-- `t1` of R257: when the waiting BS.SEND was accepted. -/
  waitStart : Nat
  /-- When the token was last released (R257). -/
  freed : Nat
  /-- `t2` of R258: the time of the last PP.PRESS answered OK. -/
  pressStart : Nat
  /-- How many PP_TICKs have happened since `t2`. -/
  pressTicks : Nat
deriving DecidableEq, Repr

/-- When the next BS_TICK is due: tick `k` at `t0 + k x sp` (R255). -/
def Clock.nextSlotTick (c : Clock) (s : State) : Nat :=
  c.burstStart + c.burstTicks * s.bs.slotPeriod.toNat

/-- When the next PP_TICK is due: tick `k` at `t2 + k x PP_BASE_UNIT` (R258). -/
def Clock.nextPpTick (c : Clock) (s : State) : Nat :=
  c.pressStart + c.pressTicks * s.cfg.ppBaseUnit.toNat

/-- When the wait bound expires (R257). -/
def Clock.waitEnd (c : Clock) (s : State) : Nat := c.waitStart + s.cfg.tokenWait.toNat

/-- Time does not pass over anything due: a tick of a running timer (R255, R258), the deadline of the
deferred unit (R250, R259), the wait bound, and the grant of a freed token (R257). -/
def Clock.nothingMissed (c : Clock) (s : State) (t : Nat) : Bool :=
  decide (c.now ≤ t) &&
  (!s.bs.run || decide (t ≤ c.nextSlotTick s)) &&
  (!s.bs.pend || decide (t < c.nextSlotTick s)) &&
  (!s.pp.run || decide (t ≤ c.nextPpTick s)) &&
  (!s.bs.wait || decide (t ≤ c.waitEnd s)) &&
  (!(s.bs.wait && !s.bs.token) || decide (t ≤ c.freed))

/-- A step that has a time of its own happens at that time (R255, R257, R258). -/
def Clock.atItsTime (c : Clock) (s : State) (t : Nat) (m : Move) : Bool :=
  match m with
  | .bsTick => decide (t = c.nextSlotTick s)
  | .ppTick => decide (t = c.nextPpTick s)
  | .bsTimeout => decide (t = c.waitEnd s)
  | .host => true
  | .bsWork => true
  | .bsGrant => true
  | .reset => true

/-- The timing rules let step `m` happen at time `t`. -/
def Clock.admits (c : Clock) (s : State) (t : Nat) (m : Move) : Bool :=
  enabled m s && c.nothingMissed s t && c.atItsTime s t m

/-- The clock after step `m` at time `t` has led from `s` to `s'`. -/
def Clock.after (c : Clock) (s s' : State) (t : Nat) (m : Move) : Clock where
  now := t
  burstStart := if !s.bs.token && s'.bs.token then t else c.burstStart
  burstTicks :=
    if !s.bs.token && s'.bs.token then 0
    else if m = .bsTick then c.burstTicks + 1
    else c.burstTicks
  waitStart := if !s.bs.wait && s'.bs.wait then t else c.waitStart
  freed := if s.bs.token && !s'.bs.token then t else c.freed
  pressStart := if !s.pp.run && s'.pp.run then t else c.pressStart
  pressTicks :=
    if !s.pp.run && s'.pp.run then 0
    else if m = .ppTick then c.pressTicks + 1
    else c.pressTicks

/-- One step of a timed run; none where the timing rules do not admit it. -/
def timedStep (c : Clock) (s : State) (t : Nat) (m : Move) : Option (Clock × State) :=
  if c.admits s t m then
    match perform m s with
    | .next s' => some (c.after s s' t m, s')
    | .fault _ => none
    | .refused _ => none
  else none

/-- How long the token is held by the transmission in flight, less the latency of its last work unit
(R256, R212). -/
def State.burstDuration (s : State) : Nat := s.bs.len.toNat * s.bs.slotPeriod.toNat

/-- The number of ticks of one frame (R94, R178). -/
def frameTicks (cfg : Config) : Nat := cfg.ppPreambleTicks.toNat + 96

/-- The number of PP_TICKs after an accepted press (R179, R258). -/
def allPressTicks (cfg : Config) : Nat := (cfg.ppRetryDefault.toNat + 1) * frameTicks cfg

end Sys2Proof.Machine
end

