-- ==== Sys2Proof/Safety.lean ====
section
/-! DEFINITION. What the claims are stated in: the invariants of R39, quiescence (R261), a clean log (R43),
the opcode table's rows (R83), and the reading of slot sequences and pin levels that the claims compare
the machine with (R89 to R94, R132, R152, R179). -/

namespace Sys2Proof

/-! ### The opcode table (R83) -/

/-- One row of spec/opcode_table.json: a packet `p` selects it when `p & mask = value`. -/
structure OpcodeRow where
  value : Packet
  mask : Packet
deriving DecidableEq, Repr

/-- The row of a command, as the table has it. -/
def Instr.row : Instr → OpcodeRow
  | .nop => ⟨0x00000000000000000000000000000000, 0xFFFFFFFFFFFFFFFFFFFFFFFFFFFFFFFF⟩
  | .rd _ => ⟨0x00000000000000000000000001000000, 0xFFFFFFFFFFFFFFFFFFFFFFFFFF00FFFF⟩
  | .seqClr => ⟨0x00000000000000000000000010000000, 0xFFFFFFFFFFFFFFFFFFFFFFFFFFFFFFFF⟩
  | .seqPush _ => ⟨0x00000000000000000000000011000000, 0xFFFFFFFFFFFFFFFFFFFFFFFFFFFFFFFE⟩
  | .seqGet _ => ⟨0x00000000000000000000000012000000, 0xFFFFFFFFFFFFFFFFFFFFFFFFFFFF0000⟩
  | .encNec _ _ _ => ⟨0x00000000000000000000000020000000, 0xFFFFFFFFFFFFFFFFFFFFFFFFFF000000⟩
  | .encBiph _ => ⟨0x00000000000000000000000021000000, 0xFFFFFFFFFFFFFFFFFFFFFFFFFFFFFFFC⟩
  | .bsSend _ _ _ => ⟨0x00000000000000000000000030000000, 0x000000000000000000000000FFFFFFFF⟩
  | .ppPress _ => ⟨0x00000000000000000000000040000000, 0xFFFFFFFFFFFFFFFFFFFFFFFFFFFFFFFC⟩

/-- The nine rows. -/
def opcodeRows : List OpcodeRow :=
  [Instr.row .nop, Instr.row (.rd 0), Instr.row .seqClr, Instr.row (.seqPush false), Instr.row (.seqGet 0),
   Instr.row (.encNec 0 0 0), Instr.row (.encBiph .power), Instr.row (.bsSend 0 0 0), Instr.row (.ppPress .power)]

/-- Packet `p` selects row `r` (R83). -/
def OpcodeRow.selectedBy (r : OpcodeRow) (p : Packet) : Bool := p &&& r.mask == r.value

end Sys2Proof

namespace Sys2Proof.Machine

/-! ### Invariants -/

/-- The invariants of R39 (1) to (8), the form of the two slot buffers and of the configuration, what R28
and R31 say of the registers, and R86's count of responses. -/
structure Inv (s : State) : Prop where
  /-- R245. -/
  cfgWf : s.cfg.wf = true
  /-- R21: `stg` has `CAP` cells. -/
  stgWf : Memory.wf s.cfg.cap s.stg.cells = true
  /-- R23: `act` has `CAP` cells. -/
  actWf : Memory.wf s.cfg.cap s.bs.act = true
  /-- R39 (1). -/
  fillLe : s.stg.fill ≤ s.cfg.cap
  /-- R39 (1). -/
  lenLe : s.bs.len ≤ s.cfg.cap
  /-- R39 (2). -/
  cursorLe : s.bs.cursor ≤ s.bs.len
  /-- R39 (3). -/
  tokenRun : s.bs.token = s.bs.run
  /-- R39 (4). -/
  pendToken : s.bs.pend = true → s.bs.token = true
  /-- R28: nonzero while `bs_run` = 1. -/
  periodNe : s.bs.run = true → s.bs.slotPeriod ≠ 0
  /-- R39 (5), R31: the last accepted command is the waiting BS.SEND, its operands latched. -/
  waitLatched : s.bs.wait = true →
    s.bs.waitSp ≠ 0 ∧ s.cfg.tokenWait ≠ 0 ∧
      ∃ p, s.obs.accepted.getLast? = some p ∧
        decode p = .command (.bsSend s.bs.waitSp s.bs.waitCp s.bs.waitPw)
  /-- R46, R124, R125: no request, no operands. -/
  noWait : s.bs.wait = false → s.bs.waitSp = 0 ∧ s.bs.waitCp = 0 ∧ s.bs.waitPw = 0
  /-- R86, R87: every accepted command has its one response, but for the one that waits. -/
  answered : s.obs.responses.length + s.bs.wait.toNat = s.obs.accepted.length
  /-- R39 (6). -/
  ppRun : s.pp.run = true ↔ s.pp.phase ≠ .idle
  /-- R39 (7). -/
  ppPreamble : s.pp.phase = .preamble →
    s.pp.pre.toNat < s.cfg.ppPreambleTicks.toNat ∧ s.pp.bit = 0 ∧ s.pp.sub = 0
  /-- R39 (7); `pp_sub < 4` is its width. -/
  ppData : s.pp.phase = .data → s.pp.pre = 0 ∧ s.pp.bit < 24
  /-- R39 (7). -/
  ppIdle : s.pp.phase = .idle → s.pp.pre = 0 ∧ s.pp.bit = 0 ∧ s.pp.sub = 0
  /-- R35: loaded with the default, then only decremented. -/
  ppRetries : s.pp.run = true → s.pp.retries ≤ s.cfg.ppRetryDefault
  /-- R39 (8). -/
  chPulse : s.bs.token = true → s.ch.pulse = 0 ∨ s.ch.pulse = s.bs.pulse

/-- No in-flight fault is logged: the premise of claims about outputs (R43). -/
def ErrLog.clean (e : ErrLog) : Bool := !e.bsTickErr && !e.ppTickErr && !e.bsOverrun

/-- The block is quiescent (R261). -/
def State.quiescent (s : State) : Bool :=
  !s.bs.token && !s.bs.run && !s.bs.pend && !s.bs.wait && decide (s.pp.phase = .idle) && !s.pp.run

/-- A step of the block itself: neither the host's nor RESET. -/
def internalMoves : List Move := [.bsTick, .bsWork, .bsGrant, .bsTimeout, .ppTick]

/-- Packet `p` is illegal in state `s`: the five cases of R84, in its order. -/
def illegalPacket (p : Packet) (s : State) : Prop :=
  p.op ∉ [0x00#8, 0x01#8, 0x10#8, 0x11#8, 0x12#8, 0x20#8, 0x21#8, 0x30#8, 0x40#8] ∨
  (∃ r ∈ opcodeRows, p.op = Packet.op r.value ∧ p &&& r.mask ≠ r.value) ∨
  (∃ reg, decode p = .command (.rd reg) ∧ 0x0B < reg) ∨
  (∃ cp pw, decode p = .command (.bsSend 0 cp pw)) ∨
  (∃ idx, decode p = .command (.seqGet idx) ∧ s.stg.fill ≤ idx)

/-- `s` with one more response on the command port (R45, R86). -/
def State.plusResponse (s : State) (code : RespCode) (data : Word) : State :=
  { s with obs := { s.obs with responses := s.obs.responses ++ [⟨code, data⟩] } }

/-- The command the port would accept next (R87). -/
def State.offered (s : State) : Option Instr :=
  match s.env.port with
  | [] => none
  | p :: _ =>
    match decode p with
    | .command i => some i
    | .illegal _ => none

/-- The next step is the host's command `i`, and the port accepts it. -/
def State.runsNext (s : State) (i : Instr) : Prop :=
  s.nextMove = .host ∧ s.bs.wait = false ∧ s.offered = some i

/-- State `w` is `s` after a press whose encode has answered OK and whose BS.SEND waits (R121, R196, R197):
toggle, staging sequence, the wait registers and the port have changed, nothing else. -/
def State.waitsAfter (w s : State) (sp cp pw : Duration) : Prop :=
  w =
    { s with
      stg := w.stg
      toggle := w.toggle
      bs := { s.bs with wait := true, waitSp := sp, waitCp := cp, waitPw := pw }
      obs :=
        { s.obs with
          accepted := w.obs.accepted, responses := s.obs.responses ++ [⟨.ok, 0⟩] } }

/-- State `t` is `s` after a press whose encode has answered OK and whose BS.SEND the channel has refused (R122,
R196, R197, R214): toggle and staging sequence may have changed, the port has two more responses, the
channel trace the one refused `ChanCfg`; `env` has one answer less, the model's own (log 3); the rest,
the free token among it, is as it was. -/
def State.refusedAfter (t s : State) (cp : Duration) : Prop :=
  t =
    { s with
      stg := t.stg
      toggle := t.toggle
      obs :=
        { s.obs with
          accepted := t.obs.accepted
          responses := s.obs.responses ++ [⟨.ok, 0⟩, ⟨.hwError, 0⟩]
          chanTrace := s.obs.chanTrace ++ [(.cfg cp, .err)] }
      env := s.env.afterChan }

/-! ### Reading slot sequences -/

/-- `pc(x)`: the number of one bits of a byte (R151). -/
def popCount (x : Byte) : Nat := (List.range 8).countP fun i => x.getLsbD i

/-- The length of a NEC-family frame (R151). -/
def necLength (addrLow addrHigh : Byte) : Nat := 106 + 2 * (popCount addrLow + popCount addrHigh)

/-- The staged sequence: slots `0 .. stg_fill-1` (R110). -/
def State.staged (s : State) : List Bool := s.stg.cells.take s.stg.fill.toNat

/-- Cut a sequence of symbols at every on slot and read each: an on slot and one off slot is bit 0, an on
slot and three off slots is bit 1 (R152, R90). None where the sequence is no run of symbols. -/
def necBits : List Bool → Option (List Bool)
  | [] => some []
  | true :: false :: false :: false :: rest => (necBits rest).map (true :: ·)
  | true :: false :: rest => (necBits rest).map (false :: ·)
  | _ => none

/-- The byte whose bit `i` is entry `i` of the list. -/
def byteOfBits (bits : List Bool) : Byte :=
  BitVec.ofNat 8 ((List.range 8).foldl (fun n i => n + if (bits[i]?).getD false then 2 ^ i else 0) 0)

/-- The four bytes of a NEC-family frame (R152, R89): after 16 on and 8 off slots come 32 bits and the stop
marker, the bits eight at a time with the first as bit 0. -/
def necDecode (frame : List Bool) : Option (Byte × Byte × Byte × Byte) :=
  if frame.take 24 = List.replicate 16 true ++ List.replicate 8 false then
    match necBits ((frame.drop 24).take (frame.length - 26)) with
    | some bits =>
      if bits.length = 32 ∧ frame.drop (frame.length - 2) = [true, false] then
        some (byteOfBits (bits.take 8), byteOfBits ((bits.drop 8).take 8),
          byteOfBits ((bits.drop 16).take 8), byteOfBits (bits.drop 24))
      else none
    | none => none
  else none

/-! ### Expected outputs -/

/-- The pulse width of a slot (R128). -/
def slotPulse (pulse : Duration) (v : Bool) : Duration := if v then pulse else 0

/-- The channel operations of one transmission after its `ChanCfg` (R132). -/
def burstOps (seq : List Bool) (pulse : Duration) : List ChanOp :=
  seq.map (fun v => .pulse (slotPulse pulse v)) ++ [.pulse 0]

/-- The pin levels of the preamble (R94). -/
def preambleLevels (ticks : Nat) : List Bool := true :: List.replicate (ticks - 1) false

/-- The pin levels of one data bit (R94). -/
def dataBitLevels (b : Bool) : List Bool :=
  if b then [true, true, true, false] else [true, false, false, false]

/-- The pin levels of one frame (R94): preamble, then bit 23 first. -/
def frameLevels (ticks : Nat) (payload : BitVec 24) : List Bool :=
  preambleLevels ticks ++ (List.range 24).flatMap fun k => dataBitLevels (payload.getLsbD (23 - k))

/-- How many ticks of the present frame have been put out (R33). -/
def State.framePosition (s : State) : Nat :=
  match s.pp.phase with
  | .idle => 0
  | .preamble => s.pp.pre.toNat
  | .data => s.cfg.ppPreambleTicks.toNat + 4 * s.pp.bit.toNat + s.pp.sub.toNat

/-- How many times a list of levels goes from low to high (R179). -/
def risingEdges : List Bool → Nat
  | [] => 0
  | [_] => 0
  | a :: b :: rest => (!a && b).toNat + risingEdges (b :: rest)

/-! ### A run of chosen steps -/

/-- The machine runs the given steps in order and stops at the first fault or refusal. -/
def runMoves (ms : List Move) (s : State) : Result :=
  Host.Core.run Sys2Proof.core ms.length { s with env := { s.env with sched := ms ++ s.env.sched } }

/-- The alternation of BS_TICK and BS_WORK, `n` times (R70, R132). -/
def tickWorkPairs : Nat → List Move
  | 0 => []
  | n + 1 => .bsTick :: .bsWork :: tickWorkPairs n

/-! ### Fair runs (R260) -/

/-- Weak fairness of the steps in `group`: where one of them stays enabled, one of them is eventually taken. -/
def WeaklyFair (group : List Move) (ms : Nat → Move) (run : Nat → State) : Prop :=
  ∀ n, (∀ k, n ≤ k → ∃ m ∈ group, enabled m (run k) = true) →
    ∃ k, n ≤ k ∧ ms k ∈ group ∧ enabled (ms k) (run k) = true

/-- An endless run of chosen steps, fair to BS_TICK, BS_WORK, PP_TICK and the pair BS_GRANT, BS_TIMEOUT (R260). -/
structure FairRun (ms : Nat → Move) (run : Nat → State) : Prop where
  steps : ∀ n, takeMove (ms n) (run n) = .next (run (n + 1))
  bsTick : WeaklyFair [.bsTick] ms run
  bsWork : WeaklyFair [.bsWork] ms run
  ppTick : WeaklyFair [.ppTick] ms run
  waiter : WeaklyFair [.bsGrant, .bsTimeout] ms run

/-! ### Invariant of timed runs (R255 to R259) -/

/-- What the timing rules keep true of a clock beside a run. -/
structure TimedInv (c : Clock) (s : State) : Prop where
  /-- A running slot timer has fired once for each slot put out, and once more for pending work. -/
  slotTicks : s.bs.run = true → c.burstTicks = s.bs.cursor.toNat + s.bs.pend.toNat
  /-- The last tick, number `burstTicks - 1`, is not in the future (R255). -/
  slotTickPast : s.bs.run = true → c.burstTicks ≠ 0 →
    c.burstStart + (c.burstTicks - 1) * s.bs.slotPeriod.toNat ≤ c.now
  /-- The next tick is not in the past. -/
  slotTickAhead : s.bs.run = true → c.now ≤ c.nextSlotTick s
  /-- The running pulse-pattern timer has fired once for each tick put out (R258, R179). -/
  ppTicks : s.pp.run = true →
    c.pressTicks + s.pp.retries.toNat * frameTicks s.cfg =
      s.cfg.ppRetryDefault.toNat * frameTicks s.cfg + s.framePosition

end Sys2Proof.Machine
end

