-- ==== Sys2Proof/Certificates/Slice0/Obligations.lean ====
section
/-! DEFINITION. The statements for the provers: what the rules of spec/ say the commands, the internal steps
and the whole machine do. `obs.accepted`, `env` and the clearing of `obs.responses` by RESET are the
model's own (log 2, 3, 4, 6, 17); where a statement speaks of them it is the model's choice. -/

open Sys2Proof Sys2Proof.Machine

/-! ### Encoding -/

/-- 95_test_vectors.md 2.1: packets written out there decode to the commands named there (V3 to V9 among
them), and the packets that stand for nothing are refused. -/
def Obligations.SampleWordsDecode : Prop :=
  decode 0x00000000000000000000000000000000 = .command .nop ∧
  decode 0x00000000000000000000000001080000 = .command (.rd 0x08) ∧
  decode 0x000000000000000000000000010C0000 = .command (.rd 0x0C) ∧
  decode 0x00000000000000000000000010000000 = .command .seqClr ∧
  decode 0x00000000000000000000000011000001 = .command (.seqPush true) ∧
  decode 0x00000000000000000000000012000100 = .command (.seqGet 256) ∧
  decode 0x0000000000000000000000002000304F = .command (.encNec 0x00 0x30 0x4F) ∧
  decode 0x00000000000000000000000021000001 = .command (.encBiph .up) ∧
  decode 0x000000090000001A0000023230000000 = .command (.bsSend 562 26 9) ∧
  decode 0x000000090000001A0000000030000000 = .command (.bsSend 0 26 9) ∧
  decode 0x00000000000000000000000040000003 = .command (.ppPress .cancel) ∧
  decode 0x00000000000000000000000002000000 = .illegal .unknownOpcode ∧
  decode 0x00000000000000000000000000010000 = .illegal .reservedNonzero ∧
  decode 0x0000000000000000000000012000304F = .illegal .reservedNonzero ∧
  decode 0x00000000000000000000000021000004 = .illegal .reservedNonzero ∧
  decode 0xFFFFFFFFFFFFFFFFFFFFFFFFFFFFFFFF = .illegal .unknownOpcode

/-- R80, R81, R83: decoding an encoded command gives it back, with every operand at every value its field
admits. -/
def Obligations.DecodeOfEncode : Prop := ∀ i : Instr, decode (encode i) = .command i

/-- R83, R84: a packet that is a command is the packet of that command; no bit of it is ignored. -/
def Obligations.EncodeOfDecode : Prop := ∀ (p : Packet) (i : Instr), decode p = .command i → encode i = p

/-- R83: the decoder matches a packet against the rows of the opcode table, and at most one row matches. -/
def Obligations.DecoderFollowsOpcodeTable : Prop :=
  (∀ (p : Packet) (i : Instr), decode p = .command i → i.row ∈ opcodeRows ∧ i.row.selectedBy p = true) ∧
  (∀ (p : Packet) (r : OpcodeRow), r ∈ opcodeRows → r.selectedBy p = true →
    ∃ i, decode p = .command i ∧ i.row = r) ∧
  (∀ (p : Packet) (r r' : OpcodeRow), r ∈ opcodeRows → r' ∈ opcodeRows → r.selectedBy p = true →
    r'.selectedBy p = true → r = r')

/-- R84: a packet is answered ILLEGAL with no other change exactly in the five cases of the rule. -/
def Obligations.IllegalPacketsAnsweredOnly : Prop :=
  (∀ (p : Packet) (s : State), illegalPacket p s → runPacket p s = .next (s.plusResponse .illegal 0)) ∧
  (∀ (p : Packet) (s t : State) (data : Word), ¬ illegalPacket p s → runPacket p s = .next t →
    t.obs.responses ≠ s.obs.responses ++ [⟨.illegal, data⟩])

/-! ### The command port -/

/-- R87 with R8: where the next step is the host's and the port accepts, a step runs the decoded command.
(`obs.accepted` and `env` are the model's own.) -/
def Obligations.StepRunsDecodedCommand : Prop :=
  ∀ (s : State) (p : Packet) (rest : List Packet) (ms : List Move) (i : Instr),
    s.bs.wait = false → s.env.sched = .host :: ms → s.env.port = p :: rest → decode p = .command i →
      step s = exec i
        { s with
          obs := { s.obs with accepted := s.obs.accepted ++ [p] }
          env := { s.env with port := rest, sched := ms } }

/-- R87: the port accepts one command at a time, in the order offered; nothing while a BS.SEND waits. -/
def Obligations.PortAcceptsOneCommandAtATime : Prop :=
  (∀ s : State, s.bs.wait = true → takeMove .host s = .next s) ∧
  (∀ (s : State) (p : Packet) (rest : List Packet), s.bs.wait = false → s.env.port = p :: rest →
    takeMove .host s = runPacket p
      { s with
        obs := { s.obs with accepted := s.obs.accepted ++ [p] }
        env := { s.env with port := rest } }) ∧
  (∀ (m : Move) (s t : State), m ≠ .host → takeMove m s = .next t → t.env.port = s.env.port) ∧
  (∀ (p : Packet) (s t : State), runPacket p s = .next t → t.env.port = s.env.port)

/-- R86: every accepted packet is answered exactly once, at once or (BS.SEND only) by the step that ends
its wait; only RD and SEQ.GET answered OK carry data; the codes are the bytes of the table. -/
def Obligations.EveryCommandAnsweredOnce : Prop :=
  (∀ (p : Packet) (s t : State), runPacket p s = .next t →
    (∃ r : Response, t.obs.responses = s.obs.responses ++ [r] ∧ t.bs.wait = s.bs.wait ∧
      (r.data ≠ 0 → r.code = .ok ∧
        ((∃ reg, decode p = .command (.rd reg)) ∨ ∃ idx, decode p = .command (.seqGet idx)))) ∨
    (t.obs.responses = s.obs.responses ∧ t.bs.wait = true ∧
      ∃ sp cp pw, decode p = .command (.bsSend sp cp pw))) ∧
  (∀ (m : Move) (s t : State), (m = .bsGrant ∨ m = .bsTimeout) → enabled m s = true →
    takeMove m s = .next t →
      ∃ code : RespCode, t.obs.responses = s.obs.responses ++ [⟨code, 0⟩] ∧ t.bs.wait = false) ∧
  (∀ (m : Move) (s t : State), (m = .bsTick ∨ m = .bsWork ∨ m = .ppTick) → takeMove m s = .next t →
    t.obs.responses = s.obs.responses) ∧
  RespCode.ok.byte = 0x00 ∧ RespCode.unsupported.byte = 0x01 ∧ RespCode.busy.byte = 0x02 ∧
  RespCode.bufferOverflow.byte = 0x03 ∧ RespCode.hwError.byte = 0x04 ∧ RespCode.illegal.byte = 0x05

/-! ### System commands -/

/-- R190: NOP is the all-zero packet and does nothing but answer OK; like every command it cannot be accepted
while a BS.SEND waits (the HOST step is then not enabled). -/
def Obligations.NopOnlyAnswersOk : Prop :=
  decode 0 = .command .nop ∧ encode .nop = 0 ∧ (∀ s : State, exec .nop s = .next (s.plusResponse .ok 0)) ∧
  (∀ s : State, s.bs.wait = true → s.offered = some .nop → enabled .host s = false)

/-- R41, R42: the bits of STATUS and the fields of PP_COUNT as RD reads them; nothing of the state changes
but the response. -/
def Obligations.RdStatusAndPpCountBits : Prop :=
  (∀ s : State, ∃ w : Word, exec (.rd 0x00) s = .next (s.plusResponse .ok w) ∧
    w.getLsbD 0 = s.bs.token ∧ w.getLsbD 1 = s.bs.run ∧ w.getLsbD 2 = s.bs.pend ∧ w.getLsbD 3 = s.toggle ∧
    (s.pp.phase = .idle → w.extractLsb' 4 2 = 0) ∧
    (s.pp.phase = .preamble → w.extractLsb' 4 2 = 1) ∧
    (s.pp.phase = .data → w.extractLsb' 4 2 = 2) ∧
    w.getLsbD 6 = s.pp.run ∧ w.getLsbD 7 = s.pin ∧ w.extractLsb' 8 24 = 0) ∧
  (∀ s : State, ∃ w : Word, exec (.rd 0x0A) s = .next (s.plusResponse .ok w) ∧
    w.extractLsb' 0 8 = s.pp.retries ∧ w.extractLsb' 8 5 = s.pp.bit ∧ w.extractLsb' 13 2 = s.pp.sub ∧
    w.getLsbD 15 = false ∧ w.extractLsb' 16 16 = s.pp.pre)

/-- R40, R191: the other registers of the window; an index above `0x0B` is ILLEGAL; no read has a side
effect. -/
def Obligations.RdReadsStatusWindow : Prop :=
  (∀ (s : State) (reg : Byte), reg ≤ 0x0B → ∃ w : Word, exec (.rd reg) s = .next (s.plusResponse .ok w)) ∧
  (∀ (s : State) (reg : Byte), 0x0B < reg → exec (.rd reg) s = .next (s.plusResponse .illegal 0)) ∧
  (∀ s : State,
    exec (.rd 0x02) s = .next (s.plusResponse .ok (BitVec.ofNat 32 s.bs.cursor.toNat)) ∧
    exec (.rd 0x03) s = .next (s.plusResponse .ok (BitVec.ofNat 32 s.bs.len.toNat)) ∧
    exec (.rd 0x04) s = .next (s.plusResponse .ok s.bs.pulse) ∧
    exec (.rd 0x05) s = .next (s.plusResponse .ok s.bs.slotPeriod) ∧
    exec (.rd 0x06) s = .next (s.plusResponse .ok s.ch.period) ∧
    exec (.rd 0x07) s = .next (s.plusResponse .ok s.ch.pulse) ∧
    exec (.rd 0x08) s = .next (s.plusResponse .ok (BitVec.ofNat 32 s.stg.fill.toNat)) ∧
    exec (.rd 0x09) s = .next (s.plusResponse .ok (BitVec.ofNat 32 s.pp.payload.toNat)) ∧
    exec (.rd 0x0B) s = .next (s.plusResponse .ok (BitVec.ofNat 32 s.cfg.cap.toNat)))

/-! ### Slot Sequence commands -/

/-- R111: SEQ.CLR sets `stg_fill` to 0 and writes nothing else; the cells keep their values. -/
def Obligations.SeqClrEmptiesSequence : Prop :=
  decode 0x10000000 = .command .seqClr ∧
  ∀ s : State, exec .seqClr s =
    .next (State.plusResponse { s with stg := { cells := s.stg.cells, fill := 0 } } .ok 0)

/-- R113, R112: SEQ.PUSH writes its slot at `stg_fill` and advances it; at `CAP` it answers
BUFFER_OVERFLOW and changes nothing. -/
def Obligations.SeqPushAppendsSlot : Prop :=
  decode 0x11000000 = .command (.seqPush false) ∧ decode 0x11000001 = .command (.seqPush true) ∧
  (∀ (v : Bool) (s : State), Memory.wf s.cfg.cap s.stg.cells = true → s.stg.fill < s.cfg.cap →
    ∃ cells : List Bool,
      exec (.seqPush v) s =
        .next (State.plusResponse { s with stg := { cells := cells, fill := s.stg.fill + 1 } } .ok 0) ∧
      Memory.wf s.cfg.cap cells = true ∧
      (s.stg.fill + 1).toNat = s.stg.fill.toNat + 1 ∧
      readSlot cells s.stg.fill = some v ∧
      ∀ k : SlotIndex, k ≠ s.stg.fill → readSlot cells k = readSlot s.stg.cells k) ∧
  (∀ (v : Bool) (s : State), s.stg.fill = s.cfg.cap →
    exec (.seqPush v) s = .next (s.plusResponse .bufferOverflow 0))

/-- R114: SEQ.GET answers OK with the staged slot below `stg_fill`, ILLEGAL at or above it, and writes
nothing. -/
def Obligations.SeqGetReadsStagedSlot : Prop :=
  decode 0x12000100 = .command (.seqGet 0x0100) ∧
  (∀ (idx : SlotIndex) (s : State), Memory.wf s.cfg.cap s.stg.cells = true → s.stg.fill ≤ s.cfg.cap →
    idx < s.stg.fill →
      ∃ v : Bool, s.stg.cells[idx.toNat]? = some v ∧
        exec (.seqGet idx) s = .next (s.plusResponse .ok (if v then 1 else 0))) ∧
  (∀ (idx : SlotIndex) (s : State), s.stg.fill ≤ idx →
    exec (.seqGet idx) s = .next (s.plusResponse .illegal 0))

/-! ### NEC-family encoder -/

/-- R150: where the frame fits, ENC.NEC answers OK, stages exactly the frame and writes nothing else; the
cells behind the frame keep their values. -/
def Obligations.EncNecStagesFrame : Prop :=
  ∀ (al ah cmd : Byte) (s : State), Memory.wf s.cfg.cap s.stg.cells = true → necLength al ah ≤ s.cfg.cap.toNat →
    ∃ stg : Staging,
      exec (.encNec al ah cmd) s = .next (State.plusResponse { s with stg := stg } .ok 0) ∧
      stg.fill.toNat = necLength al ah ∧
      stg.cells.take stg.fill.toNat = necFrame al ah cmd ∧
      Memory.wf s.cfg.cap stg.cells = true ∧
      ∀ k : SlotIndex, stg.fill ≤ k → readSlot stg.cells k = readSlot s.stg.cells k

/-- R151: the length law. -/
def Obligations.EncNecLengthLaw : Prop :=
  ∀ (al ah cmd : Byte) (s t : State), exec (.encNec al ah cmd) s = .next t →
    t.obs.responses = s.obs.responses ++ [⟨.ok, 0⟩] →
      t.stg.fill.toNat = 106 + 2 * (popCount al + popCount ah) ∧
      106 ≤ t.stg.fill.toNat ∧ t.stg.fill.toNat ≤ 138

/-- R152: the sequence a successful ENC.NEC stages determines its operands. -/
def Obligations.EncNecDecodable : Prop :=
  ∀ (al ah cmd : Byte) (s t : State), Memory.wf s.cfg.cap s.stg.cells = true →
    exec (.encNec al ah cmd) s = .next t → t.obs.responses = s.obs.responses ++ [⟨.ok, 0⟩] →
      necDecode t.staged = some (al, ah, cmd, ~~~cmd)

/-- R153: where the frame does not fit, ENC.NEC answers BUFFER_OVERFLOW and leaves the first `CAP` slots of
the frame; nothing is rolled back and nothing else is written. -/
def Obligations.EncNecOverflowKeepsPrefix : Prop :=
  ∀ (al ah cmd : Byte) (s : State), Memory.wf s.cfg.cap s.stg.cells = true → s.cfg.cap.toNat < necLength al ah →
    exec (.encNec al ah cmd) s =
      .next (State.plusResponse
        { s with stg := { cells := (necFrame al ah cmd).take s.cfg.cap.toNat, fill := s.cfg.cap } }
        .bufferOverflow 0)

/-! ### Biphase encoder -/

/-- R161, R91: the layout of the biphase code. -/
def Obligations.BiphaseCodeLayout : Prop :=
  ∀ (addr : BitVec 5) (cmd : BitVec 6) (t : Bool),
    (biphaseCode addr cmd t).toNat =
      (0b11 <<< 12) ||| (t.toNat <<< 11) ||| (addr.toNat <<< 6) ||| cmd.toNat

/-- R160: where 28 slots fit, ENC.BIPH POWER flips the toggle, stages the frame of the code built with the
flipped toggle, answers OK and writes nothing else. -/
def Obligations.EncBiphPowerStagesFrame : Prop :=
  ∀ s : State, Memory.wf s.cfg.cap s.stg.cells = true → 28 ≤ s.cfg.cap.toNat →
    ∃ stg : Staging,
      exec (.encBiph .power) s =
        .next (State.plusResponse { s with toggle := !s.toggle, stg := stg } .ok 0) ∧
      stg.fill = 28 ∧
      (∀ k : Nat, k < 14 →
        stg.cells[2 * k]? = some (!(biphaseCode s.cfg.biphAddr s.cfg.biphCmdPower !s.toggle).getLsbD (13 - k)) ∧
        stg.cells[2 * k + 1]? = some ((biphaseCode s.cfg.biphAddr s.cfg.biphCmdPower !s.toggle).getLsbD (13 - k))) ∧
      Memory.wf s.cfg.cap stg.cells = true ∧
      ∀ k : SlotIndex, stg.fill ≤ k → readSlot stg.cells k = readSlot s.stg.cells k

/-- R162: the shape of a staged biphase frame. -/
def Obligations.EncBiphShape : Prop :=
  ∀ s t : State, Memory.wf s.cfg.cap s.stg.cells = true → exec (.encBiph .power) s = .next t →
    t.obs.responses = s.obs.responses ++ [⟨.ok, 0⟩] →
      t.stg.fill = 28 ∧ t.staged.length = 28 ∧
      (∀ k : Nat, k < 14 → t.staged[2 * k]? ≠ t.staged[2 * k + 1]? ∧
        t.staged[2 * k + 1]? = some (t.powerCode.getLsbD (13 - k))) ∧
      t.staged.take 4 = [false, true, false, true] ∧
      t.staged.count true = 14 ∧
      ∀ k : Nat, k + 2 < 28 → ¬ (t.staged[k]? = t.staged[k + 1]? ∧ t.staged[k + 1]? = t.staged[k + 2]?)

/-- R163: two successful POWER encodes with the toggle and the configuration untouched between them build
codes that differ in bit 11 alone and sequences that differ in slots 4 and 5 alone. -/
def Obligations.EncBiphToggleLaw : Prop :=
  ∀ s t s' t' : State, Memory.wf s.cfg.cap s.stg.cells = true → Memory.wf s'.cfg.cap s'.stg.cells = true →
    exec (.encBiph .power) s = .next t → t.obs.responses = s.obs.responses ++ [⟨.ok, 0⟩] →
    s'.toggle = t.toggle → s'.cfg = t.cfg →
    exec (.encBiph .power) s' = .next t' → t'.obs.responses = s'.obs.responses ++ [⟨.ok, 0⟩] →
      t'.toggle = s.toggle ∧
      (∀ k : Nat, k < 14 → (t.powerCode.getLsbD k = t'.powerCode.getLsbD k ↔ k ≠ 11)) ∧
      (∀ k : Nat, t.staged[k]? = t'.staged[k]? ↔ k ≠ 4 ∧ k ≠ 5)

/-- R164: ENC.BIPH of another button answers UNSUPPORTED and changes nothing. -/
def Obligations.EncBiphUnsupportedChangesNothing : Prop :=
  ∀ (button : Button) (s : State), button ≠ .power →
    exec (.encBiph button) s = .next (s.plusResponse .unsupported 0)

/-- R165: where 28 slots do not fit, the toggle stays flipped and the first `CAP` slots stay. -/
def Obligations.EncBiphOverflowKeepsPrefix : Prop :=
  ∀ s : State, Memory.wf s.cfg.cap s.stg.cells = true → s.cfg.cap.toNat < 28 →
    exec (.encBiph .power) s =
      .next (State.plusResponse
        { s with
          toggle := !s.toggle
          stg :=
            { cells := (biphaseFrame (biphaseCode s.cfg.biphAddr s.cfg.biphCmdPower !s.toggle)).take s.cfg.cap.toNat
              fill := s.cfg.cap } }
        .bufferOverflow 0)

/-! ### Burst Sequencer -/

/-- R122, R121 first branch: with the token free BS.SEND issues one `ChanCfg`; on `ok` the transmission is
set up and the answer is OK, on `err` the answer is HW_ERROR and only the channel trace shows it. -/
def Obligations.BsSendAcquiresToken : Prop :=
  ∀ (sp cp pw : Duration) (s : State), sp ≠ 0 → s.bs.token = false →
    ∃ t : State, exec (.bsSend sp cp pw) s = .next t ∧
      (s.chanAnswer = .ok →
        t = State.plusResponse
          { s with
            bs :=
              { s.bs with
                token := true, pulse := pw, act := s.stg.cells, len := s.stg.fill, cursor := 0,
                slotPeriod := sp, pend := false, run := true }
            ch := { period := cp, pulse := 0 }
            obs := { s.obs with chanTrace := s.obs.chanTrace ++ [(.cfg cp, .ok)] }
            env := s.env.afterChan } .ok 0) ∧
      (s.chanAnswer = .err →
        t = State.plusResponse
          { s with
            obs := { s.obs with chanTrace := s.obs.chanTrace ++ [(.cfg cp, .err)] }
            env := s.env.afterChan } .hwError 0)

/-- R121, R219: slot period zero is ILLEGAL; with the token held BS.SEND answers BUSY at once when
`TOKEN_WAIT` = 0 and enters the wait state otherwise, with no channel operation either way. -/
def Obligations.BsSendBusyOrWaits : Prop :=
  (∀ (cp pw : Duration) (s : State), exec (.bsSend 0 cp pw) s = .next (s.plusResponse .illegal 0)) ∧
  (∀ (sp cp pw : Duration) (s : State), sp ≠ 0 → s.bs.token = true → s.cfg.tokenWait = 0 →
    exec (.bsSend sp cp pw) s = .next (s.plusResponse .busy 0)) ∧
  (∀ (sp cp pw : Duration) (s : State), sp ≠ 0 → s.bs.token = true → s.cfg.tokenWait ≠ 0 →
    exec (.bsSend sp cp pw) s =
      .next { s with bs := { s.bs with wait := true, waitSp := sp, waitCp := cp, waitPw := pw } })

/-- R124, R125: BS_GRANT, enabled when a BS.SEND waits and the token is free, is the acquisition with the
latched operands; BS_TIMEOUT, enabled throughout the wait, answers BUSY and changes nothing else; either
clears the wait registers. -/
def Obligations.WaitingRequestGrantedOrTimedOut : Prop :=
  (∀ s : State, enabled .bsGrant s = (s.bs.wait && !s.bs.token)) ∧
  (∀ s : State, enabled .bsTimeout s = s.bs.wait) ∧
  (∀ s : State, s.bs.wait = true →
    takeMove .bsTimeout s =
      .next (State.plusResponse
        { s with bs := { s.bs with wait := false, waitSp := 0, waitCp := 0, waitPw := 0 } } .busy 0)) ∧
  (∀ s : State, s.bs.wait = true → s.bs.token = false →
    ∃ t : State, takeMove .bsGrant s = .next t ∧
      (s.chanAnswer = .ok →
        t = State.plusResponse
          { s with
            bs :=
              { act := s.stg.cells, token := true, cursor := 0, len := s.stg.fill, pulse := s.bs.waitPw,
                slotPeriod := s.bs.waitSp, run := true, pend := false,
                wait := false, waitSp := 0, waitCp := 0, waitPw := 0 }
            ch := { period := s.bs.waitCp, pulse := 0 }
            obs := { s.obs with chanTrace := s.obs.chanTrace ++ [(.cfg s.bs.waitCp, .ok)] }
            env := s.env.afterChan } .ok 0) ∧
      (s.chanAnswer = .err →
        t = State.plusResponse
          { s with
            bs := { s.bs with wait := false, waitSp := 0, waitCp := 0, waitPw := 0 }
            obs := { s.obs with chanTrace := s.obs.chanTrace ++ [(.cfg s.bs.waitCp, .err)] }
            env := s.env.afterChan } .hwError 0))

/-- R123: a wait is ended only by BS_GRANT, BS_TIMEOUT or RESET; while it lasts the port accepts nothing
and the staging sequence and the latched operands do not change. -/
def Obligations.WaitEndedOnlyByWaiter : Prop :=
  ∀ s t : State, s.bs.wait = true → step s = .next t → s.nextMove ≠ .reset →
    t.stg = s.stg ∧ t.obs.accepted = s.obs.accepted ∧ t.env.port = s.env.port ∧
    (t.bs.wait = false → s.nextMove = .bsGrant ∨ s.nextMove = .bsTimeout) ∧
    (t.bs.wait = true →
      t.bs.waitSp = s.bs.waitSp ∧ t.bs.waitCp = s.bs.waitCp ∧ t.bs.waitPw = s.bs.waitPw)

/-- R126: BS_TICK, enabled when `bs_run` = 1, marks work pending; over pending work it only logs
BS_OVERRUN. -/
def Obligations.BsTickMarksWorkPending : Prop :=
  (∀ s : State, enabled .bsTick s = s.bs.run) ∧
  (∀ s : State, s.bs.run = true → s.bs.pend = false →
    takeMove .bsTick s = .next { s with bs := { s.bs with pend := true } }) ∧
  (∀ s : State, s.bs.run = true → s.bs.pend = true →
    takeMove .bsTick s = .next { s with errlog := { s.errlog with bsOverrun := true } })

/-- R127, R128, R130: the slot step puts out the slot at the cursor with one `ChanPulse` and advances the
cursor whatever the channel answers. -/
def Obligations.BsWorkPutsOutSlot : Prop :=
  ∀ (s : State) (v : Bool), s.bs.pend = true → s.bs.cursor < s.bs.len → s.bs.act[s.bs.cursor.toNat]? = some v →
    ∃ t : State, takeMove .bsWork s = .next t ∧
      (s.chanAnswer = .ok →
        t =
          { s with
            bs := { s.bs with pend := false, cursor := s.bs.cursor + 1 }
            ch := { s.ch with pulse := slotPulse s.bs.pulse v }
            obs := { s.obs with chanTrace := s.obs.chanTrace ++ [(.pulse (slotPulse s.bs.pulse v), .ok)] }
            env := s.env.afterChan }) ∧
      (s.chanAnswer = .err →
        t =
          { s with
            bs := { s.bs with pend := false, cursor := s.bs.cursor + 1 }
            errlog := { s.errlog with bsTickErr := true }
            obs := { s.obs with chanTrace := s.obs.chanTrace ++ [(.pulse (slotPulse s.bs.pulse v), .err)] }
            env := s.env.afterChan })

/-- R129, R130: the end step stops the timer, issues `ChanPulse(0)` and releases the token, also when the
channel answers `err`. -/
def Obligations.BsWorkEndsTransmission : Prop :=
  ∀ s : State, s.bs.pend = true → s.bs.len ≤ s.bs.cursor →
    ∃ t : State, takeMove .bsWork s = .next t ∧
      (s.chanAnswer = .ok →
        t =
          { s with
            bs := { s.bs with pend := false, run := false, token := false }
            ch := { s.ch with pulse := 0 }
            obs := { s.obs with chanTrace := s.obs.chanTrace ++ [(.pulse 0, .ok)] }
            env := s.env.afterChan }) ∧
      (s.chanAnswer = .err →
        t =
          { s with
            bs := { s.bs with pend := false, run := false, token := false }
            errlog := { s.errlog with bsTickErr := true }
            obs := { s.obs with chanTrace := s.obs.chanTrace ++ [(.pulse 0, .err)] }
            env := s.env.afterChan })

/-- R132, R65, R76: a burst accepted by the channel, its ticks and work units alternating, issues
`ChanCfg(cp)`, then one `ChanPulse` for each staged slot in order, then `ChanPulse(0)`; the token is held
until the last of the `L + 1` work units and free after it, whatever the channel answers; every other field of the state is
given (`env`, what is left of the outside world's inputs, is the model's own, log 2, 3). -/
def Obligations.TransmissionShape : Prop :=
  ∀ (sp cp pw : Duration) (s u : State), Memory.wf s.cfg.cap s.stg.cells = true → s.stg.fill ≤ s.cfg.cap →
    sp ≠ 0 → s.bs.token = false → s.chanAnswer = .ok → exec (.bsSend sp cp pw) s = .next u →
      (∀ n : Nat, n ≤ s.stg.fill.toNat →
        ∃ t : State, runMoves (tickWorkPairs n) u = .next t ∧ t.bs.token = true ∧ t.bs.cursor.toNat = n ∧
          t.obs.chanTrace.map Prod.fst =
            s.obs.chanTrace.map Prod.fst ++ [.cfg cp] ++
              (s.staged.take n).map fun v => .pulse (slotPulse pw v)) ∧
      ∃ (t : State) (ops : List (ChanOp × Answer)),
        runMoves (tickWorkPairs (s.stg.fill.toNat + 1)) u = .next t ∧
        ops.map Prod.fst = .cfg cp :: burstOps s.staged pw ∧
        t =
          { s with
            bs :=
              { s.bs with
                act := s.stg.cells, token := false, cursor := s.stg.fill, len := s.stg.fill, pulse := pw,
                slotPeriod := sp, run := false, pend := false }
            ch := { period := cp, pulse := t.ch.pulse }
            errlog := { s.errlog with bsTickErr := s.errlog.bsTickErr || ops.any fun o => decide (o.2 = .err) }
            obs :=
              { s.obs with
                chanTrace := s.obs.chanTrace ++ ops, responses := s.obs.responses ++ [⟨.ok, 0⟩] }
            env := t.env } ∧
        (t.ch.pulse = 0 ∨ t.ch.pulse = pw) ∧
        ((∀ o ∈ ops, o.2 = .ok) → t.ch.pulse = 0)

/-- R133, R74: while the token is held no command changes the transmission in flight, and only the end
step of BS_WORK or RESET releases the token. -/
def Obligations.TransmissionUndisturbed : Prop :=
  (∀ (i : Instr) (s t : State), s.bs.token = true → exec i s = .next t →
    t.ch = s.ch ∧ t.obs.chanTrace = s.obs.chanTrace ∧
    t.bs =
      { s.bs with
        wait := t.bs.wait, waitSp := t.bs.waitSp, waitCp := t.bs.waitCp, waitPw := t.bs.waitPw }) ∧
  (∀ s t : State, s.bs.token = true → step s = .next t → t.bs.token = false →
    s.nextMove = .reset ∨ (s.nextMove = .bsWork ∧ s.bs.pend = true ∧ s.bs.len ≤ s.bs.cursor))

/-- R73: the token is acquired only by BS.SEND or BS_GRANT, only when it is free and the channel accepts. -/
def Obligations.TokenAcquiredOnlyByAcquisition : Prop :=
  ∀ s t : State, s.bs.token = false → step s = .next t → t.bs.token = true →
    s.chanAnswer = .ok ∧ t.bs.cursor = 0 ∧ t.bs.act = s.stg.cells ∧ t.bs.len = s.stg.fill ∧
      ((s.nextMove = .bsGrant ∧ s.bs.wait = true) ∨ ∃ sp cp pw, s.runsNext (.bsSend sp cp pw))

/-- R25: the cursor moves only forward, by one, in the slot step of BS_WORK, and is set to zero only by an
acquisition (or RESET); it never wraps. -/
def Obligations.CursorMovesByOne : Prop :=
  ∀ s t : State, Inv s → step s = .next t → s.nextMove ≠ .reset → t.bs.cursor ≠ s.bs.cursor →
    (s.nextMove = .bsWork ∧ s.bs.pend = true ∧ t.bs.cursor.toNat = s.bs.cursor.toNat + 1 ∧
      t.bs.cursor ≤ s.bs.len) ∨
    (s.bs.token = false ∧ t.bs.token = true ∧ t.bs.cursor = 0)

/-! ### Pulse-Pattern Transmitter -/

/-- R171: PP.PRESS starts the frame sequence of a supported button when idle, answers BUSY when a sequence
is in progress and UNSUPPORTED for POWER in every phase, and does not touch the pin. -/
def Obligations.PpPressStartsFrames : Prop :=
  (∀ s : State, exec (.ppPress .power) s = .next (s.plusResponse .unsupported 0)) ∧
  (∀ (button : Button) (s : State), button ≠ .power → s.pp.phase ≠ .idle →
    exec (.ppPress button) s = .next (s.plusResponse .busy 0)) ∧
  (∀ (button : Button) (key : Byte) (s : State),
    (button = .up ∧ key = s.cfg.ppKeyUp) ∨ (button = .down ∧ key = s.cfg.ppKeyDown) ∨
      (button = .cancel ∧ key = s.cfg.ppKeyCancel) →
    s.pp.phase = .idle →
      exec (.ppPress button) s =
        .next (State.plusResponse
          { s with
            pp :=
              { phase := .preamble, pre := 0, bit := 0, sub := 0, payload := ppPayload s.cfg key,
                retries := s.cfg.ppRetryDefault, run := true } } .ok 0))

/-- R93 with the shift 5 of R173: what each bit of the payload is. -/
def Obligations.PpPayloadBits : Prop :=
  ∀ (cfg : Config) (key : Byte), cfg.ppShift = 5 → ∀ j : Nat, j < 24 →
    (ppPayload cfg key).getLsbD j =
      ((decide (5 ≤ j) && cfg.ppFixedCode.getLsbD (j - 5)) || key.getLsbD j)

/-- R176, R174, R180: a preamble tick writes the pin once, high on the first tick and low after it, and
counts whatever the pin answers. -/
def Obligations.PpTickPreamble : Prop :=
  ∀ s : State, s.pp.run = true → s.pp.phase = .preamble →
    ∃ t : State, takeMove .ppTick s = .next t ∧
      t =
        { s with
          pp := t.pp
          pin := if s.pinAnswer = .ok then decide (s.pp.pre = 0) else s.pin
          errlog := { s.errlog with ppTickErr := s.errlog.ppTickErr || decide (s.pinAnswer = .err) }
          obs := { s.obs with pinTrace := s.obs.pinTrace ++ [(decide (s.pp.pre = 0), s.pinAnswer)] }
          env := s.env.afterPin } ∧
      (s.pp.pre.toNat + 1 < s.cfg.ppPreambleTicks.toNat → t.pp = { s.pp with pre := s.pp.pre + 1 }) ∧
      (s.cfg.ppPreambleTicks.toNat ≤ s.pp.pre.toNat + 1 → t.pp = { s.pp with pre := 0, phase := .data })

/-- R177, R175, R178, R180: a data tick writes the pin once with the level of the present sub-phase, and
counts whatever the pin answers; the last tick of bit 23 ends the frame. -/
def Obligations.PpTickData : Prop :=
  ∀ s : State, s.pp.run = true → s.pp.phase = .data → s.pp.bit < 24 →
    ∃ (t : State) (level : Bool), takeMove .ppTick s = .next t ∧
      (dataBitLevels (s.pp.payload.getLsbD (23 - s.pp.bit.toNat)))[s.pp.sub.toNat]? = some level ∧
      t =
        { s with
          pp := t.pp
          pin := if s.pinAnswer = .ok then level else s.pin
          errlog := { s.errlog with ppTickErr := s.errlog.ppTickErr || decide (s.pinAnswer = .err) }
          obs := { s.obs with pinTrace := s.obs.pinTrace ++ [(level, s.pinAnswer)] }
          env := s.env.afterPin } ∧
      (s.pp.sub ≠ 3 → t.pp = { s.pp with sub := s.pp.sub + 1 }) ∧
      (s.pp.sub = 3 → s.pp.bit ≠ 23 → t.pp = { s.pp with sub := 0, bit := s.pp.bit + 1 }) ∧
      (s.pp.sub = 3 → s.pp.bit = 23 → s.pp.retries ≠ 0 →
        t.pp = { s.pp with sub := 0, bit := 0, retries := s.pp.retries - 1, phase := .preamble }) ∧
      (s.pp.sub = 3 → s.pp.bit = 23 → s.pp.retries = 0 →
        t.pp = { s.pp with sub := 0, bit := 0, run := false, phase := .idle })

/-- R179: from the start of a frame with `pp_retries` = N exactly `N + 1` frames are put out, in exactly
`(N + 1) x (PP_PREAMBLE_TICKS + 96)` ticks, and then the transmitter is idle; nothing else changes but the
pin, its log bit and its trace (and `env`, what is left of the outside world's inputs, the model's own,
log 2, 3), whatever the pin answers. -/
def Obligations.FrameCountLaw : Prop :=
  ∀ s : State, s.cfg.ppPreambleTicks ≠ 0 → s.pp.run = true → s.pp.phase = .preamble → s.pp.pre = 0 →
    s.pp.bit = 0 → s.pp.sub = 0 →
      (∀ n : Nat, n < (s.pp.retries.toNat + 1) * (s.cfg.ppPreambleTicks.toNat + 96) →
        ∃ t : State, runMoves (List.replicate n .ppTick) s = .next t ∧ t.pp.run = true) ∧
      ∃ t : State,
        runMoves (List.replicate ((s.pp.retries.toNat + 1) * (s.cfg.ppPreambleTicks.toNat + 96)) .ppTick) s =
          .next t ∧
        t.obs.pinTrace.map Prod.fst = s.obs.pinTrace.map Prod.fst ++
          (List.replicate (s.pp.retries.toNat + 1)
            (frameLevels s.cfg.ppPreambleTicks.toNat s.pp.payload)).flatten ∧
        t =
          { s with
            pp := { s.pp with phase := .idle, retries := 0, run := false }
            pin := t.pin
            errlog := { s.errlog with ppTickErr := t.errlog.ppTickErr }
            obs := { s.obs with pinTrace := t.obs.pinTrace }
            env := t.env }

/-- R179: from every state at the start of a frame, the levels that the frame's PP_TICKs write to the pin rise
25 times, given a low pin before them and a preamble of at least two ticks, and 24 times with a preamble
of one. -/
def Obligations.FrameRisingEdges : Prop :=
  ∀ s : State, s.cfg.ppPreambleTicks ≠ 0 → s.pp.run = true → s.pp.phase = .preamble → s.pp.pre = 0 →
    s.pp.bit = 0 → s.pp.sub = 0 →
      ∃ (t : State) (levels : List Bool),
        runMoves (List.replicate (frameTicks s.cfg) .ppTick) s = .next t ∧
        t.obs.pinTrace.map Prod.fst = s.obs.pinTrace.map Prod.fst ++ levels ∧
        levels.length = frameTicks s.cfg ∧
        (2 ≤ s.cfg.ppPreambleTicks.toNat → risingEdges (false :: levels) = 25) ∧
        (s.cfg.ppPreambleTicks.toNat = 1 → risingEdges (false :: levels) = 24)

/-- R170: every change of `pp_phase` is one of the table's transitions, made by its step under its
condition (or RESET). -/
def Obligations.PpPhaseTransitions : Prop :=
  ∀ s t : State, Inv s → step s = .next t → s.nextMove ≠ .reset → t.pp.phase ≠ s.pp.phase →
    (s.pp.phase = .idle ∧ t.pp.phase = .preamble ∧
      ∃ button, button ≠ .power ∧ s.runsNext (.ppPress button)) ∨
    (s.nextMove = .ppTick ∧ s.pp.run = true ∧
      ((s.pp.phase = .preamble ∧ t.pp.phase = .data ∧
          s.pp.pre.toNat + 1 = s.cfg.ppPreambleTicks.toNat) ∨
       (s.pp.phase = .data ∧ t.pp.phase = .preamble ∧ s.pp.bit = 23 ∧ s.pp.sub = 3 ∧ s.pp.retries ≠ 0) ∨
       (s.pp.phase = .data ∧ t.pp.phase = .idle ∧ s.pp.bit = 23 ∧ s.pp.sub = 3 ∧ s.pp.retries = 0)))

/-- R181: the pulse-pattern rules write nothing of the other components, and no other command or internal
step writes anything of the Pulse-Pattern Transmitter. -/
def Obligations.PulsePatternIndependent : Prop :=
  (∀ (button : Button) (s t : State), exec (.ppPress button) s = .next t ∨ takeMove .ppTick s = .next t →
    t.stg = s.stg ∧ t.bs = s.bs ∧ t.toggle = s.toggle ∧ t.ch = s.ch ∧
      t.obs.chanTrace = s.obs.chanTrace ∧ t.env.chanAnswers = s.env.chanAnswers ∧ t.env.chanNo = s.env.chanNo) ∧
  (∀ (i : Instr) (s t : State), (∀ button, i ≠ .ppPress button) → exec i s = .next t →
    t.pp = s.pp ∧ t.pin = s.pin ∧ t.obs.pinTrace = s.obs.pinTrace) ∧
  (∀ (m : Move) (s t : State), m = .bsTick ∨ m = .bsWork ∨ m = .bsGrant ∨ m = .bsTimeout →
    takeMove m s = .next t →
      t.pp = s.pp ∧ t.pin = s.pin ∧ t.obs.pinTrace = s.obs.pinTrace ∧ t.errlog.ppTickErr = s.errlog.ppTickErr)

/-- R70 (4), R181, R220: a step of the Burst Sequencer and a step of the Pulse-Pattern Transmitter commute:
both orders reach the same state. -/
def Obligations.SequencerAndPulsePatternCommute : Prop :=
  ∀ (m : Move) (s u v : State), m = .bsTick ∨ m = .bsWork ∨ m = .bsGrant ∨ m = .bsTimeout →
    takeMove m s = .next u → takeMove .ppTick s = .next v →
      ∃ w : State, takeMove .ppTick u = .next w ∧ takeMove m v = .next w

/-! ### The whole machine -/

/-- R46, R240, R241: the reset values, of the machine at reset and of the state RESET leaves. RESET is enabled
in every state and completes, issues no device operation (no answer is drawn, the traces start empty),
keeps the configuration, and leaves no step of the block enabled. That the response list and
`obs.accepted` start empty and that the outside world's inputs stay are the model's choices (log 6, 17). -/
def Obligations.ResetValues : Prop :=
  (∀ t : State, (t = State.reset ∨ ∃ s : State, takeMove .reset s = .next t) →
    t.stg = { cells := List.replicate t.cfg.cap.toNat false, fill := 0 } ∧
    t.bs =
      { act := List.replicate t.cfg.cap.toNat false, token := false, cursor := 0, len := 0, pulse := 0,
        slotPeriod := 0, run := false, pend := false, wait := false, waitSp := 0, waitCp := 0, waitPw := 0 } ∧
    t.toggle = false ∧
    t.pp = { phase := .idle, pre := 0, bit := 0, sub := 0, payload := 0, retries := 0, run := false } ∧
    t.ch = { period := 0, pulse := 0 } ∧ t.pin = false ∧
    t.errlog = { bsTickErr := false, ppTickErr := false, bsOverrun := false } ∧
    t.obs = { accepted := [], responses := [], chanTrace := [], pinTrace := [] } ∧
    ∀ m ∈ internalMoves, enabled m t = false) ∧
  (∀ s : State, enabled .reset s = true ∧
    ∃ t : State, takeMove .reset s = .next t ∧ t.cfg = s.cfg ∧ t.env = s.env)

/-- R39 at reset: the invariants hold in the state after reset. -/
def Obligations.InvAtReset : Prop := Inv State.reset

/-- R39, R28, R31, R86, R245: every step keeps the invariants. -/
def Obligations.InvKeptByEveryStep : Prop := ∀ s t : State, Inv s → step s = .next t → Inv t

/-- R210, 93_implementation_defined.md ("No treatment is stuck"): where the invariants hold no step stops. That
a scheduled step which is not enabled does nothing is the model's choice (log 9). -/
def Obligations.NoStepStops : Prop := ∀ s : State, Inv s → ∃ t : State, step s = .next t

/-- R44: no step changes a configuration constant. -/
def Obligations.ConfigurationNeverChanges : Prop := ∀ s t : State, step s = .next t → t.cfg = s.cfg

/-- R43, R223: how RD shows ERRLOG, which event sets which bit, and that a bit once set stays until
reset. -/
def Obligations.ErrlogRecordsInFlightFaults : Prop :=
  (∀ s : State, ∃ w : Word, exec (.rd 0x01) s = .next (s.plusResponse .ok w) ∧
    w.getLsbD 0 = s.errlog.bsTickErr ∧ w.getLsbD 1 = s.errlog.ppTickErr ∧ w.getLsbD 2 = s.errlog.bsOverrun ∧
    w.extractLsb' 3 29 = 0) ∧
  (∀ s t : State, step s = .next t → s.nextMove ≠ .reset →
    (t.errlog.bsTickErr =
      (s.errlog.bsTickErr || (decide (s.nextMove = .bsWork) && s.bs.pend && decide (s.chanAnswer = .err)))) ∧
    (t.errlog.ppTickErr =
      (s.errlog.ppTickErr || (decide (s.nextMove = .ppTick) && s.pp.run && decide (s.pinAnswer = .err)))) ∧
    (t.errlog.bsOverrun =
      (s.errlog.bsOverrun || (decide (s.nextMove = .bsTick) && s.bs.run && s.bs.pend))))

/-- R37, R38, R227, R228: only the acquisition step and BS_WORK operate the channel, only PP_TICK operates
the pin, at most one operation a step, and RESET operates neither: it draws no answer, from the lists of `env` or
of the free ones (log 3; that RESET keeps `env` is the model's choice, log 17). -/
def Obligations.OnlyOwnersOperateDevices : Prop :=
  (∀ s t : State, step s = .next t → s.nextMove ≠ .reset →
    (t.obs.chanTrace ≠ s.obs.chanTrace ∨ t.ch ≠ s.ch →
      (s.nextMove = .bsWork ∧ s.bs.pend = true) ∨ (s.nextMove = .bsGrant ∧ s.bs.wait = true) ∨
        ∃ sp cp pw, s.runsNext (.bsSend sp cp pw)) ∧
    (t.obs.pinTrace ≠ s.obs.pinTrace ∨ t.pin ≠ s.pin → s.nextMove = .ppTick ∧ s.pp.run = true)) ∧
  (∀ s t : State, step s = .next t → s.nextMove ≠ .reset →
    (t.obs.chanTrace = s.obs.chanTrace ∨ ∃ op, t.obs.chanTrace = s.obs.chanTrace ++ [(op, s.chanAnswer)]) ∧
    (t.obs.pinTrace = s.obs.pinTrace ∨ ∃ l, t.obs.pinTrace = s.obs.pinTrace ++ [(l, s.pinAnswer)])) ∧
  (∀ s t : State, takeMove .reset s = .next t → t.env = s.env)

/-- R61, R32, R72: the staging sequence is written only by SEQ.CLR, SEQ.PUSH, ENC.NEC and ENC.BIPH POWER,
the toggle only by ENC.BIPH POWER, the active sequence only by an acquisition. -/
def Obligations.OnlyEncodersWriteStaging : Prop :=
  ∀ s t : State, step s = .next t → s.nextMove ≠ .reset →
    (t.stg ≠ s.stg →
      s.runsNext .seqClr ∨ (∃ v, s.runsNext (.seqPush v)) ∨ (∃ al ah cmd, s.runsNext (.encNec al ah cmd)) ∨
        s.runsNext (.encBiph .power)) ∧
    (t.toggle ≠ s.toggle → s.runsNext (.encBiph .power)) ∧
    (t.bs.act ≠ s.bs.act → s.bs.token = false ∧ t.bs.token = true)

/-- R261: the block is quiescent exactly when no internal step is enabled (where the invariants hold). -/
def Obligations.QuiescentIffNothingEnabled : Prop :=
  ∀ s : State, Inv s → (s.quiescent = true ↔ ∀ m ∈ internalMoves, enabled m s = false)

/-- R260, R76, R179: in a weakly fair run from a state where the invariants hold, every held token is
released, every waiting request is answered and every frame sequence ends (or RESET ends it). -/
def Obligations.FairRunsComplete : Prop :=
  ∀ (ms : Nat → Move) (run : Nat → State), FairRun ms run → Inv (run 0) → ∀ n : Nat,
    ((run n).bs.token = true → ∃ k, n ≤ k ∧ (run k).bs.token = false) ∧
    ((run n).bs.wait = true → ∃ k, n ≤ k ∧ (run k).bs.wait = false) ∧
    ((run n).pp.run = true → ∃ k, n ≤ k ∧ (run k).pp.run = false)

/-! ### Facade -/

/-- R199 (1), (2), R197, R211, R248: a press answered UNSUPPORTED changes nothing but the command port; the
unsupported buttons of each device get that answer; a press whose encode overflows issues no BS.SEND and
changes the staging sequence and the toggle only; a display, projector or screen press answered BUSY at once
leaves sequencer, channel, transmitter and pin alone. The port is free at the start (a press that finds it taken waits, see
`PressResultIsItsLastResponse`). -/
def Obligations.RejectedPressTouchesNoOutput : Prop :=
  (∀ (device : Device) (button : Button) (k left : Nat) (s t : State), s.bs.wait = false →
    pressButton device button k s = .next ⟨left, t, .done .unsupported⟩ →
      left = k ∧
      t = { s with obs := { s.obs with accepted := t.obs.accepted, responses := t.obs.responses } }) ∧
  (∀ (device : Device) (button : Button) (k : Nat) (s : State), s.bs.wait = false →
    (device = .display ∧ button ≠ .power) ∨ (device = .screen ∧ button = .power) ∨
      (device = .projector ∧ necTriple s.cfg.necButtons button = none) →
    ∃ t : State, pressButton device button k s = .next ⟨k, t, .done .unsupported⟩) ∧
  (∀ (device : Device) (button : Button) (k left : Nat) (s t : State), s.bs.wait = false →
    pressButton device button k s = .next ⟨left, t, .done .bufferOverflow⟩ →
      left = k ∧
      t =
        { s with
          stg := t.stg
          toggle := t.toggle
          obs := { s.obs with accepted := t.obs.accepted, responses := t.obs.responses } }) ∧
  (∀ (k : Nat) (s : State), Memory.wf s.cfg.cap s.stg.cells = true → s.cfg.wf = true → 28 ≤ s.cfg.cap.toNat →
    s.bs.wait = false → s.bs.token = true → s.cfg.tokenWait = 0 →
    ∃ t : State, pressDisplay .power k s = .next ⟨k, t, .done .busy⟩ ∧
      t =
        { s with
          stg := t.stg
          toggle := !s.toggle
          obs := { s.obs with accepted := t.obs.accepted, responses := t.obs.responses } }) ∧
  (∀ (button : Button) (e : NecTriple) (k : Nat) (s : State), Memory.wf s.cfg.cap s.stg.cells = true →
    s.cfg.wf = true → necTriple s.cfg.necButtons button = some e →
    necLength e.addrLow e.addrHigh ≤ s.cfg.cap.toNat →
    s.bs.wait = false → s.bs.token = true → s.cfg.tokenWait = 0 →
    ∃ t : State, pressProjector button k s = .next ⟨k, t, .done .busy⟩ ∧
      t =
        { s with
          stg := t.stg
          obs := { s.obs with accepted := t.obs.accepted, responses := t.obs.responses } }) ∧
  (∀ (button : Button) (k : Nat) (s : State), s.bs.wait = false → button ≠ .power → s.pp.phase ≠ .idle →
    ∃ t : State, pressScreen button k s = .next ⟨k, t, .done .busy⟩ ∧
      t = { s with obs := { s.obs with accepted := t.obs.accepted, responses := t.obs.responses } })

/-- R195 to R199: the result of a press is the response to its last command. With the token free, room for
the frame and a channel that accepts, a display POWER press and a projector press of a known button
answer OK and start a burst of the encoded frame with the protocol's burst parameters; a screen press
of a supported button answers OK in IDLE. Where the channel refuses, the first two answer HW_ERROR with the
token still free and the one refused `ChanCfg` in the trace. With the token held and a wait bound, the press waits with its
BS.SEND, and its result is the response of the BS_GRANT or BS_TIMEOUT that ends the wait (OK, HW_ERROR or
BUSY), none if RESET drops the command, and open while the steps granted are used up. A press that finds
an earlier command unanswered goes on where the port opens. (log 14.) -/
def Obligations.PressResultIsItsLastResponse : Prop :=
  (∀ (k : Nat) (s : State), Memory.wf s.cfg.cap s.stg.cells = true → s.cfg.wf = true → 28 ≤ s.cfg.cap.toNat →
    s.bs.wait = false → s.bs.token = false → s.chanAnswer = .ok →
    ∃ t : State, pressDisplay .power k s = .next ⟨k, t, .done .ok⟩ ∧
      t.toggle = !s.toggle ∧ t.bs.token = true ∧ t.bs.run = true ∧ t.bs.cursor = 0 ∧
      t.bs.act.take t.bs.len.toNat = biphaseFrame t.powerCode ∧ t.bs.slotPeriod = s.cfg.biphSlotPeriod ∧
      t.bs.pulse = s.cfg.biphCarrierPulse ∧
      t.obs.chanTrace = s.obs.chanTrace ++ [(.cfg s.cfg.biphCarrierPeriod, .ok)]) ∧
  (∀ (button : Button) (e : NecTriple) (k : Nat) (s : State), Memory.wf s.cfg.cap s.stg.cells = true →
    s.cfg.wf = true → necTriple s.cfg.necButtons button = some e →
    necLength e.addrLow e.addrHigh ≤ s.cfg.cap.toNat →
    s.bs.wait = false → s.bs.token = false → s.chanAnswer = .ok →
    ∃ t : State, pressProjector button k s = .next ⟨k, t, .done .ok⟩ ∧
      t.toggle = s.toggle ∧ t.bs.token = true ∧ t.bs.run = true ∧ t.bs.cursor = 0 ∧
      t.bs.act.take t.bs.len.toNat = necFrame e.addrLow e.addrHigh e.command ∧
      t.bs.slotPeriod = s.cfg.necSlotPeriod ∧ t.bs.pulse = s.cfg.necCarrierPulse ∧
      t.obs.chanTrace = s.obs.chanTrace ++ [(.cfg s.cfg.necCarrierPeriod, .ok)]) ∧
  (∀ (button : Button) (key : Byte) (k : Nat) (s : State), keyCode s.cfg button = some key →
    s.bs.wait = false → s.pp.phase = .idle →
    ∃ t : State, pressScreen button k s = .next ⟨k, t, .done .ok⟩ ∧ t.pp.phase = .preamble ∧ t.pp.run = true ∧
      t.pp.payload = ppPayload s.cfg key ∧ t.bs = s.bs ∧ t.stg = s.stg ∧ t.pin = s.pin) ∧
  (∀ (k : Nat) (s : State), Memory.wf s.cfg.cap s.stg.cells = true → s.cfg.wf = true → 28 ≤ s.cfg.cap.toNat →
    s.bs.wait = false → s.bs.token = false → s.chanAnswer = .err →
    ∃ t : State, pressDisplay .power k s = .next ⟨k, t, .done .hwError⟩ ∧
      t.refusedAfter s s.cfg.biphCarrierPeriod ∧
      t.toggle = !s.toggle ∧ t.staged = biphaseFrame t.powerCode) ∧
  (∀ (button : Button) (e : NecTriple) (k : Nat) (s : State), Memory.wf s.cfg.cap s.stg.cells = true →
    s.cfg.wf = true → necTriple s.cfg.necButtons button = some e →
    necLength e.addrLow e.addrHigh ≤ s.cfg.cap.toNat →
    s.bs.wait = false → s.bs.token = false → s.chanAnswer = .err →
    ∃ t : State, pressProjector button k s = .next ⟨k, t, .done .hwError⟩ ∧
      t.refusedAfter s s.cfg.necCarrierPeriod ∧
      t.toggle = s.toggle ∧ t.staged = necFrame e.addrLow e.addrHigh e.command) ∧
  (∀ (k : Nat) (s : State), Memory.wf s.cfg.cap s.stg.cells = true → s.cfg.wf = true → 28 ≤ s.cfg.cap.toNat →
    s.bs.wait = false → s.bs.token = true → s.cfg.tokenWait ≠ 0 →
    ∃ w : State,
      w.waitsAfter s s.cfg.biphSlotPeriod s.cfg.biphCarrierPeriod s.cfg.biphCarrierPulse ∧
      w.toggle = !s.toggle ∧ w.staged = biphaseFrame w.powerCode ∧
      pressDisplay .power k s = andThen (untilAnswered k w) fun a => .next ⟨a.1, a.2, a.2.lastAnswer⟩) ∧
  (∀ (button : Button) (e : NecTriple) (k : Nat) (s : State), Memory.wf s.cfg.cap s.stg.cells = true →
    s.cfg.wf = true → necTriple s.cfg.necButtons button = some e →
    necLength e.addrLow e.addrHigh ≤ s.cfg.cap.toNat →
    s.bs.wait = false → s.bs.token = true → s.cfg.tokenWait ≠ 0 →
    ∃ w : State,
      w.waitsAfter s s.cfg.necSlotPeriod s.cfg.necCarrierPeriod s.cfg.necCarrierPulse ∧
      w.toggle = s.toggle ∧ w.staged = necFrame e.addrLow e.addrHigh e.command ∧
      pressProjector button k s = andThen (untilAnswered k w) fun a => .next ⟨a.1, a.2, a.2.lastAnswer⟩) ∧
  (∀ (k left : Nat) (w t : State), w.bs.wait = true → untilAnswered k w = .next (left, t) →
    (t.lastAnswer = .unanswered ∧ left = 0 ∧ t.obs.responses = w.obs.responses) ∨
    (t.lastAnswer = .dropped ∧ ∃ u : State, takeMove .reset u = .next t) ∨
    (∃ code ∈ [RespCode.ok, RespCode.busy, RespCode.hwError],
      t.lastAnswer = .done code ∧ t.obs.responses = w.obs.responses ++ [⟨code, 0⟩])) ∧
  (∀ (k : Nat) (w : State), w.bs.wait = true →
    (w.nextMove = .bsTimeout →
      ∃ t : State, untilAnswered (k + 1) w = .next (k, t) ∧ t.lastAnswer = .done .busy) ∧
    (w.nextMove = .bsGrant → w.bs.token = false →
      ∃ t : State, untilAnswered (k + 1) w = .next (k, t) ∧
        (w.chanAnswer = .ok → t.lastAnswer = .done .ok) ∧
        (w.chanAnswer = .err → t.lastAnswer = .done .hwError)) ∧
    (w.nextMove = .reset →
      ∃ t : State, untilAnswered (k + 1) w = .next (k, t) ∧ t.lastAnswer = .dropped)) ∧
  (∀ (button : Button) (k left : Nat) (s t : State), s.bs.wait = true → untilAnswered k s = .next (left, t) →
    (t.bs.wait = false →
      pressDisplay button k s = pressDisplay button left t ∧ pressScreen button k s = pressScreen button left t ∧
      (necTriple s.cfg.necButtons button ≠ none →
        pressProjector button k s = pressProjector button left t)) ∧
    (t.bs.wait = true →
      pressDisplay button k s = .next ⟨left, t, .unanswered⟩ ∧
      pressScreen button k s = .next ⟨left, t, .unanswered⟩ ∧
      (necTriple s.cfg.necButtons button ≠ none →
        pressProjector button k s = .next ⟨left, t, .unanswered⟩)))

/-! ### Time -/

/-- R255, R258, R259: a step that the timing rules admit keeps the clock's invariant. The clock is the
model's own (log 10). -/
def Obligations.TimedStepKeepsClock : Prop :=
  ∀ (c c' : Clock) (s s' : State) (time : Nat) (m : Move), Inv s → TimedInv c s →
    timedStep c s time m = some (c', s') → TimedInv c' s'

/-- R255, R256, R259: in a timed run each work unit falls into the window of its tick, and the end step,
which releases the token, into the window of tick number `bs_len`. -/
def Obligations.WorkFallsIntoItsWindow : Prop :=
  ∀ (c c' : Clock) (s s' : State) (time : Nat), Inv s → TimedInv c s →
    timedStep c s time .bsWork = some (c', s') →
      c.burstStart + s.bs.cursor.toNat * s.bs.slotPeriod.toNat ≤ time ∧
      time < c.burstStart + (s.bs.cursor.toNat + 1) * s.bs.slotPeriod.toNat ∧
      (s'.bs.token = false →
        c.burstStart + s.burstDuration ≤ time ∧ time < c.burstStart + s.burstDuration + s.bs.slotPeriod.toNat)

/-- R250: a run that keeps the timing rules logs no overrun. -/
def Obligations.TimedRunsNeverOverrun : Prop :=
  ∀ (c c' : Clock) (s s' : State) (time : Nat) (m : Move), timedStep c s time m = some (c', s') →
    s'.errlog.bsOverrun = true → s.errlog.bsOverrun = true

/-- R258, R179: the PP_TICK that stops the timer is the last of `(PP_RETRY_DEFAULT + 1) x
(PP_PREAMBLE_TICKS + 96)` and happens that many base units, less one, after the press. -/
def Obligations.LastPpTickTime : Prop :=
  ∀ (c c' : Clock) (s s' : State) (time : Nat), Inv s → TimedInv c s →
    timedStep c s time .ppTick = some (c', s') → s'.pp.run = false →
      time = c.pressStart + (allPressTicks s.cfg - 1) * s.cfg.ppBaseUnit.toNat
end

