-- ==== Sys2Proof/Laws/Encoding.lean ====
section
/-! SUPPORT. Packets and their fields (R80): a packet is its seven fields, the fields of a packet made of
fields are those, and the two-bit codes of R82. -/

namespace Sys2Proof

section
variable (op a b c : Byte) (d0 d1 d2 : Word)

@[simp] theorem Packet.c_ofFields : (Packet.ofFields op a b c d0 d1 d2).c = c := by
  apply BitVec.eq_of_getLsbD_eq
  intro i hi
  simp only [Packet.ofFields, Packet.c, BitVec.getLsbD_extractLsb', BitVec.getLsbD_append]
  simp [show 0 + i = i by omega, hi]

@[simp] theorem Packet.b_ofFields : (Packet.ofFields op a b c d0 d1 d2).b = b := by
  apply BitVec.eq_of_getLsbD_eq
  intro i hi
  simp only [Packet.ofFields, Packet.b, BitVec.getLsbD_extractLsb', BitVec.getLsbD_append]
  simp [show ¬ (8 + i < 8) by omega, show 8 + i - 8 = i by omega, hi]

@[simp] theorem Packet.a_ofFields : (Packet.ofFields op a b c d0 d1 d2).a = a := by
  apply BitVec.eq_of_getLsbD_eq
  intro i hi
  simp only [Packet.ofFields, Packet.a, BitVec.getLsbD_extractLsb', BitVec.getLsbD_append]
  simp [show ¬ (16 + i < 8) by omega, show ¬ (16 + i - 8 < 8) by omega, show 16 + i - 8 - 8 = i by omega, hi]

@[simp] theorem Packet.op_ofFields : (Packet.ofFields op a b c d0 d1 d2).op = op := by
  apply BitVec.eq_of_getLsbD_eq
  intro i hi
  simp only [Packet.ofFields, Packet.op, BitVec.getLsbD_extractLsb', BitVec.getLsbD_append]
  simp [show ¬ (24 + i < 8) by omega, show ¬ (24 + i - 8 < 8) by omega, show ¬ (24 + i - 8 - 8 < 8) by omega, show 24 + i - 8 - 8 - 8 = i by omega, hi]

@[simp] theorem Packet.d0_ofFields : (Packet.ofFields op a b c d0 d1 d2).d0 = d0 := by
  apply BitVec.eq_of_getLsbD_eq
  intro i hi
  simp only [Packet.ofFields, Packet.d0, BitVec.getLsbD_extractLsb', BitVec.getLsbD_append]
  simp [show ¬ (32 + i < 8) by omega, show ¬ (32 + i - 8 < 8) by omega, show ¬ (32 + i - 8 - 8 < 8) by omega, show ¬ (32 + i - 8 - 8 - 8 < 8) by omega, show 32 + i - 8 - 8 - 8 - 8 = i by omega, hi]

@[simp] theorem Packet.d1_ofFields : (Packet.ofFields op a b c d0 d1 d2).d1 = d1 := by
  apply BitVec.eq_of_getLsbD_eq
  intro i hi
  simp only [Packet.ofFields, Packet.d1, BitVec.getLsbD_extractLsb', BitVec.getLsbD_append]
  simp [show ¬ (64 + i < 8) by omega, show ¬ (64 + i - 8 < 8) by omega, show ¬ (64 + i - 8 - 8 < 8) by omega, show ¬ (64 + i - 8 - 8 - 8 < 8) by omega, show ¬ (64 + i - 8 - 8 - 8 - 8 < 32) by omega, show 64 + i - 8 - 8 - 8 - 8 - 32 = i by omega, hi]

@[simp] theorem Packet.d2_ofFields : (Packet.ofFields op a b c d0 d1 d2).d2 = d2 := by
  apply BitVec.eq_of_getLsbD_eq
  intro i hi
  simp only [Packet.ofFields, Packet.d2, BitVec.getLsbD_extractLsb', BitVec.getLsbD_append]
  simp [show ¬ (96 + i < 8) by omega, show ¬ (96 + i - 8 < 8) by omega, show ¬ (96 + i - 8 - 8 < 8) by omega, show ¬ (96 + i - 8 - 8 - 8 < 8) by omega, show ¬ (96 + i - 8 - 8 - 8 - 8 < 32) by omega, show ¬ (96 + i - 8 - 8 - 8 - 8 - 32 < 32) by omega, show 96 + i - 8 - 8 - 8 - 8 - 32 - 32 = i by omega, hi]

end

/-- A packet is what its seven fields say (R80). -/
theorem Packet.ofFields_fields (p : Packet) : Packet.ofFields p.op p.a p.b p.c p.d0 p.d1 p.d2 = p := by
  apply BitVec.eq_of_getLsbD_eq
  intro i hi
  simp only [Packet.ofFields, Packet.op, Packet.a, Packet.b, Packet.c, Packet.d0, Packet.d1, Packet.d2,
    BitVec.getLsbD_extractLsb', BitVec.getLsbD_append]
  by_cases h1 : i < 8
  · simp [h1]
  · by_cases h2 : i < 16
    · simp [h1, show i - 8 < 8 by omega, show 8 + (i - 8) = i by omega]
    · by_cases h3 : i < 24
      · simp [h1, show ¬ (i - 8 < 8) by omega, show i - 8 - 8 < 8 by omega, show 16 + (i - 8 - 8) = i by omega]
      · by_cases h4 : i < 32
        · simp [h1, show ¬ (i - 8 < 8) by omega, show ¬ (i - 8 - 8 < 8) by omega,
            show i - 8 - 8 - 8 < 8 by omega, show 24 + (i - 8 - 8 - 8) = i by omega]
        · by_cases h5 : i < 64
          · simp [h1, show ¬ (i - 8 < 8) by omega, show ¬ (i - 8 - 8 < 8) by omega,
              show ¬ (i - 8 - 8 - 8 < 8) by omega, show i - 8 - 8 - 8 - 8 < 32 by omega,
              show 32 + (i - 8 - 8 - 8 - 8) = i by omega]
          · by_cases h6 : i < 96
            · simp [h1, show ¬ (i - 8 < 8) by omega, show ¬ (i - 8 - 8 < 8) by omega,
                show ¬ (i - 8 - 8 - 8 < 8) by omega, show ¬ (i - 8 - 8 - 8 - 8 < 32) by omega,
                show i - 8 - 8 - 8 - 8 - 32 < 32 by omega, show 64 + (i - 8 - 8 - 8 - 8 - 32) = i by omega]
            · simp [h1, show ¬ (i - 8 < 8) by omega, show ¬ (i - 8 - 8 < 8) by omega,
                show ¬ (i - 8 - 8 - 8 < 8) by omega, show ¬ (i - 8 - 8 - 8 - 8 < 32) by omega,
                show ¬ (i - 8 - 8 - 8 - 8 - 32 < 32) by omega, show i - 8 - 8 - 8 - 8 - 32 - 32 < 32 by omega,
                show 96 + (i - 8 - 8 - 8 - 8 - 32 - 32) = i by omega]

/-- Two packets with equal fields are equal. -/
theorem Packet.ext_fields {p q : Packet} (hop : p.op = q.op) (ha : p.a = q.a) (hb : p.b = q.b) (hc : p.c = q.c)
    (h0 : p.d0 = q.d0) (h1 : p.d1 = q.d1) (h2 : p.d2 = q.d2) : p = q := by
  rw [← Packet.ofFields_fields p, ← Packet.ofFields_fields q, hop, ha, hb, hc, h0, h1, h2]

/-- The fields of a bitwise and. -/
theorem Packet.fields_and (p q : Packet) :
    Packet.op (p &&& q) = p.op &&& q.op ∧ Packet.a (p &&& q) = p.a &&& q.a ∧
    Packet.b (p &&& q) = p.b &&& q.b ∧ Packet.c (p &&& q) = p.c &&& q.c ∧
    Packet.d0 (p &&& q) = p.d0 &&& q.d0 ∧ Packet.d1 (p &&& q) = p.d1 &&& q.d1 ∧
    Packet.d2 (p &&& q) = p.d2 &&& q.d2 := by
  refine ⟨?_, ?_, ?_, ?_, ?_, ?_, ?_⟩ <;>
    simp [Packet.op, Packet.a, Packet.b, Packet.c, Packet.d0, Packet.d1, Packet.d2, BitVec.extractLsb'_and]

@[simp] theorem Packet.wordsZero_iff (p : Packet) : p.wordsZero = true ↔ p.d0 = 0 ∧ p.d1 = 0 ∧ p.d2 = 0 := by
  simp [Packet.wordsZero, and_assoc]

/-- A row's command comes out exactly where its reserved fields are zero. -/
theorem Decoded.whenZero_eq_command {zero : Bool} {i j : Instr} :
    Decoded.whenZero zero i = .command j ↔ zero = true ∧ i = j := by
  cases zero <;> simp [Decoded.whenZero]

@[simp] theorem Button.ofBits_bits (b : Button) : Button.ofBits b.bits = b := by cases b <;> rfl

theorem Button.bits_ofBits : ∀ x : BitVec 2, (Button.ofBits x).bits = x := by decide

end Sys2Proof
end

