-- ==== Sys2Proof/Laws/State.lean ====
section
/-! SUPPORT. One lemma per field per update of the state: what each named update leaves in each field. -/

namespace Sys2Proof.Machine

section
variable (s : State)

@[simp] theorem State.respond_cfg (code : RespCode) (data : Word) : (State.respond code data s).cfg = s.cfg := rfl
@[simp] theorem State.respond_stg (code : RespCode) (data : Word) : (State.respond code data s).stg = s.stg := rfl
@[simp] theorem State.respond_bs (code : RespCode) (data : Word) : (State.respond code data s).bs = s.bs := rfl
@[simp] theorem State.respond_toggle (code : RespCode) (data : Word) : (State.respond code data s).toggle = s.toggle := rfl
@[simp] theorem State.respond_pp (code : RespCode) (data : Word) : (State.respond code data s).pp = s.pp := rfl
@[simp] theorem State.respond_ch (code : RespCode) (data : Word) : (State.respond code data s).ch = s.ch := rfl
@[simp] theorem State.respond_pin (code : RespCode) (data : Word) : (State.respond code data s).pin = s.pin := rfl
@[simp] theorem State.respond_errlog (code : RespCode) (data : Word) : (State.respond code data s).errlog = s.errlog := rfl
@[simp] theorem State.respond_obs (code : RespCode) (data : Word) : (State.respond code data s).obs = { s.obs with responses := s.obs.responses ++ [⟨code, data⟩] } := rfl
@[simp] theorem State.respond_env (code : RespCode) (data : Word) : (State.respond code data s).env = s.env := rfl

@[simp] theorem State.fail_cfg (code : RespCode) : (State.fail code s).cfg = s.cfg := rfl
@[simp] theorem State.fail_stg (code : RespCode) : (State.fail code s).stg = s.stg := rfl
@[simp] theorem State.fail_bs (code : RespCode) : (State.fail code s).bs = s.bs := rfl
@[simp] theorem State.fail_toggle (code : RespCode) : (State.fail code s).toggle = s.toggle := rfl
@[simp] theorem State.fail_pp (code : RespCode) : (State.fail code s).pp = s.pp := rfl
@[simp] theorem State.fail_ch (code : RespCode) : (State.fail code s).ch = s.ch := rfl
@[simp] theorem State.fail_pin (code : RespCode) : (State.fail code s).pin = s.pin := rfl
@[simp] theorem State.fail_errlog (code : RespCode) : (State.fail code s).errlog = s.errlog := rfl
@[simp] theorem State.fail_obs (code : RespCode) : (State.fail code s).obs = { s.obs with responses := s.obs.responses ++ [⟨code, 0⟩] } := rfl
@[simp] theorem State.fail_env (code : RespCode) : (State.fail code s).env = s.env := rfl

@[simp] theorem State.plusResponse_cfg (code : RespCode) (data : Word) : (State.plusResponse s code data).cfg = s.cfg := rfl
@[simp] theorem State.plusResponse_stg (code : RespCode) (data : Word) : (State.plusResponse s code data).stg = s.stg := rfl
@[simp] theorem State.plusResponse_bs (code : RespCode) (data : Word) : (State.plusResponse s code data).bs = s.bs := rfl
@[simp] theorem State.plusResponse_toggle (code : RespCode) (data : Word) : (State.plusResponse s code data).toggle = s.toggle := rfl
@[simp] theorem State.plusResponse_pp (code : RespCode) (data : Word) : (State.plusResponse s code data).pp = s.pp := rfl
@[simp] theorem State.plusResponse_ch (code : RespCode) (data : Word) : (State.plusResponse s code data).ch = s.ch := rfl
@[simp] theorem State.plusResponse_pin (code : RespCode) (data : Word) : (State.plusResponse s code data).pin = s.pin := rfl
@[simp] theorem State.plusResponse_errlog (code : RespCode) (data : Word) : (State.plusResponse s code data).errlog = s.errlog := rfl
@[simp] theorem State.plusResponse_obs (code : RespCode) (data : Word) : (State.plusResponse s code data).obs = { s.obs with responses := s.obs.responses ++ [⟨code, data⟩] } := rfl
@[simp] theorem State.plusResponse_env (code : RespCode) (data : Word) : (State.plusResponse s code data).env = s.env := rfl

@[simp] theorem State.logBsTickErr_cfg : (State.logBsTickErr s).cfg = s.cfg := rfl
@[simp] theorem State.logBsTickErr_stg : (State.logBsTickErr s).stg = s.stg := rfl
@[simp] theorem State.logBsTickErr_bs : (State.logBsTickErr s).bs = s.bs := rfl
@[simp] theorem State.logBsTickErr_toggle : (State.logBsTickErr s).toggle = s.toggle := rfl
@[simp] theorem State.logBsTickErr_pp : (State.logBsTickErr s).pp = s.pp := rfl
@[simp] theorem State.logBsTickErr_ch : (State.logBsTickErr s).ch = s.ch := rfl
@[simp] theorem State.logBsTickErr_pin : (State.logBsTickErr s).pin = s.pin := rfl
@[simp] theorem State.logBsTickErr_errlog : (State.logBsTickErr s).errlog = { s.errlog with bsTickErr := true } := rfl
@[simp] theorem State.logBsTickErr_obs : (State.logBsTickErr s).obs = s.obs := rfl
@[simp] theorem State.logBsTickErr_env : (State.logBsTickErr s).env = s.env := rfl

@[simp] theorem State.logPpTickErr_cfg : (State.logPpTickErr s).cfg = s.cfg := rfl
@[simp] theorem State.logPpTickErr_stg : (State.logPpTickErr s).stg = s.stg := rfl
@[simp] theorem State.logPpTickErr_bs : (State.logPpTickErr s).bs = s.bs := rfl
@[simp] theorem State.logPpTickErr_toggle : (State.logPpTickErr s).toggle = s.toggle := rfl
@[simp] theorem State.logPpTickErr_pp : (State.logPpTickErr s).pp = s.pp := rfl
@[simp] theorem State.logPpTickErr_ch : (State.logPpTickErr s).ch = s.ch := rfl
@[simp] theorem State.logPpTickErr_pin : (State.logPpTickErr s).pin = s.pin := rfl
@[simp] theorem State.logPpTickErr_errlog : (State.logPpTickErr s).errlog = { s.errlog with ppTickErr := true } := rfl
@[simp] theorem State.logPpTickErr_obs : (State.logPpTickErr s).obs = s.obs := rfl
@[simp] theorem State.logPpTickErr_env : (State.logPpTickErr s).env = s.env := rfl

@[simp] theorem State.logBsOverrun_cfg : (State.logBsOverrun s).cfg = s.cfg := rfl
@[simp] theorem State.logBsOverrun_stg : (State.logBsOverrun s).stg = s.stg := rfl
@[simp] theorem State.logBsOverrun_bs : (State.logBsOverrun s).bs = s.bs := rfl
@[simp] theorem State.logBsOverrun_toggle : (State.logBsOverrun s).toggle = s.toggle := rfl
@[simp] theorem State.logBsOverrun_pp : (State.logBsOverrun s).pp = s.pp := rfl
@[simp] theorem State.logBsOverrun_ch : (State.logBsOverrun s).ch = s.ch := rfl
@[simp] theorem State.logBsOverrun_pin : (State.logBsOverrun s).pin = s.pin := rfl
@[simp] theorem State.logBsOverrun_errlog : (State.logBsOverrun s).errlog = { s.errlog with bsOverrun := true } := rfl
@[simp] theorem State.logBsOverrun_obs : (State.logBsOverrun s).obs = s.obs := rfl
@[simp] theorem State.logBsOverrun_env : (State.logBsOverrun s).env = s.env := rfl

@[simp] theorem State.chanIssue_cfg (op : ChanOp) : (State.chanIssue op s).cfg = s.cfg := rfl
@[simp] theorem State.chanIssue_stg (op : ChanOp) : (State.chanIssue op s).stg = s.stg := rfl
@[simp] theorem State.chanIssue_bs (op : ChanOp) : (State.chanIssue op s).bs = s.bs := rfl
@[simp] theorem State.chanIssue_toggle (op : ChanOp) : (State.chanIssue op s).toggle = s.toggle := rfl
@[simp] theorem State.chanIssue_pp (op : ChanOp) : (State.chanIssue op s).pp = s.pp := rfl
@[simp] theorem State.chanIssue_ch (op : ChanOp) : (State.chanIssue op s).ch = s.ch := rfl
@[simp] theorem State.chanIssue_pin (op : ChanOp) : (State.chanIssue op s).pin = s.pin := rfl
@[simp] theorem State.chanIssue_errlog (op : ChanOp) : (State.chanIssue op s).errlog = s.errlog := rfl
@[simp] theorem State.chanIssue_obs (op : ChanOp) : (State.chanIssue op s).obs = { s.obs with chanTrace := s.obs.chanTrace ++ [(op, s.chanAnswer)] } := rfl
@[simp] theorem State.chanIssue_env (op : ChanOp) : (State.chanIssue op s).env = s.env.afterChan := rfl

@[simp] theorem State.pinIssue_cfg (level : Bool) : (State.pinIssue level s).cfg = s.cfg := rfl
@[simp] theorem State.pinIssue_stg (level : Bool) : (State.pinIssue level s).stg = s.stg := rfl
@[simp] theorem State.pinIssue_bs (level : Bool) : (State.pinIssue level s).bs = s.bs := rfl
@[simp] theorem State.pinIssue_toggle (level : Bool) : (State.pinIssue level s).toggle = s.toggle := rfl
@[simp] theorem State.pinIssue_pp (level : Bool) : (State.pinIssue level s).pp = s.pp := rfl
@[simp] theorem State.pinIssue_ch (level : Bool) : (State.pinIssue level s).ch = s.ch := rfl
@[simp] theorem State.pinIssue_pin (level : Bool) : (State.pinIssue level s).pin = s.pin := rfl
@[simp] theorem State.pinIssue_errlog (level : Bool) : (State.pinIssue level s).errlog = s.errlog := rfl
@[simp] theorem State.pinIssue_obs (level : Bool) : (State.pinIssue level s).obs = { s.obs with pinTrace := s.obs.pinTrace ++ [(level, s.pinAnswer)] } := rfl
@[simp] theorem State.pinIssue_env (level : Bool) : (State.pinIssue level s).env = s.env.afterPin := rfl

@[simp] theorem State.clearStaging_cfg : (State.clearStaging s).cfg = s.cfg := rfl
@[simp] theorem State.clearStaging_stg : (State.clearStaging s).stg = { s.stg with fill := 0 } := rfl
@[simp] theorem State.clearStaging_bs : (State.clearStaging s).bs = s.bs := rfl
@[simp] theorem State.clearStaging_toggle : (State.clearStaging s).toggle = s.toggle := rfl
@[simp] theorem State.clearStaging_pp : (State.clearStaging s).pp = s.pp := rfl
@[simp] theorem State.clearStaging_ch : (State.clearStaging s).ch = s.ch := rfl
@[simp] theorem State.clearStaging_pin : (State.clearStaging s).pin = s.pin := rfl
@[simp] theorem State.clearStaging_errlog : (State.clearStaging s).errlog = s.errlog := rfl
@[simp] theorem State.clearStaging_obs : (State.clearStaging s).obs = s.obs := rfl
@[simp] theorem State.clearStaging_env : (State.clearStaging s).env = s.env := rfl

@[simp] theorem State.flipToggle_cfg : (State.flipToggle s).cfg = s.cfg := rfl
@[simp] theorem State.flipToggle_stg : (State.flipToggle s).stg = s.stg := rfl
@[simp] theorem State.flipToggle_bs : (State.flipToggle s).bs = s.bs := rfl
@[simp] theorem State.flipToggle_toggle : (State.flipToggle s).toggle = (!s.toggle) := rfl
@[simp] theorem State.flipToggle_pp : (State.flipToggle s).pp = s.pp := rfl
@[simp] theorem State.flipToggle_ch : (State.flipToggle s).ch = s.ch := rfl
@[simp] theorem State.flipToggle_pin : (State.flipToggle s).pin = s.pin := rfl
@[simp] theorem State.flipToggle_errlog : (State.flipToggle s).errlog = s.errlog := rfl
@[simp] theorem State.flipToggle_obs : (State.flipToggle s).obs = s.obs := rfl
@[simp] theorem State.flipToggle_env : (State.flipToggle s).env = s.env := rfl

@[simp] theorem State.startWait_cfg (sp cp pw : Duration) : (State.startWait sp cp pw s).cfg = s.cfg := rfl
@[simp] theorem State.startWait_stg (sp cp pw : Duration) : (State.startWait sp cp pw s).stg = s.stg := rfl
@[simp] theorem State.startWait_bs (sp cp pw : Duration) : (State.startWait sp cp pw s).bs = { s.bs with wait := true, waitSp := sp, waitCp := cp, waitPw := pw } := rfl
@[simp] theorem State.startWait_toggle (sp cp pw : Duration) : (State.startWait sp cp pw s).toggle = s.toggle := rfl
@[simp] theorem State.startWait_pp (sp cp pw : Duration) : (State.startWait sp cp pw s).pp = s.pp := rfl
@[simp] theorem State.startWait_ch (sp cp pw : Duration) : (State.startWait sp cp pw s).ch = s.ch := rfl
@[simp] theorem State.startWait_pin (sp cp pw : Duration) : (State.startWait sp cp pw s).pin = s.pin := rfl
@[simp] theorem State.startWait_errlog (sp cp pw : Duration) : (State.startWait sp cp pw s).errlog = s.errlog := rfl
@[simp] theorem State.startWait_obs (sp cp pw : Duration) : (State.startWait sp cp pw s).obs = s.obs := rfl
@[simp] theorem State.startWait_env (sp cp pw : Duration) : (State.startWait sp cp pw s).env = s.env := rfl

@[simp] theorem State.endWait_cfg : (State.endWait s).cfg = s.cfg := rfl
@[simp] theorem State.endWait_stg : (State.endWait s).stg = s.stg := rfl
@[simp] theorem State.endWait_bs : (State.endWait s).bs = { s.bs with wait := false, waitSp := 0, waitCp := 0, waitPw := 0 } := rfl
@[simp] theorem State.endWait_toggle : (State.endWait s).toggle = s.toggle := rfl
@[simp] theorem State.endWait_pp : (State.endWait s).pp = s.pp := rfl
@[simp] theorem State.endWait_ch : (State.endWait s).ch = s.ch := rfl
@[simp] theorem State.endWait_pin : (State.endWait s).pin = s.pin := rfl
@[simp] theorem State.endWait_errlog : (State.endWait s).errlog = s.errlog := rfl
@[simp] theorem State.endWait_obs : (State.endWait s).obs = s.obs := rfl
@[simp] theorem State.endWait_env : (State.endWait s).env = s.env := rfl

@[simp] theorem State.clearPend_cfg : (State.clearPend s).cfg = s.cfg := rfl
@[simp] theorem State.clearPend_stg : (State.clearPend s).stg = s.stg := rfl
@[simp] theorem State.clearPend_bs : (State.clearPend s).bs = { s.bs with pend := false } := rfl
@[simp] theorem State.clearPend_toggle : (State.clearPend s).toggle = s.toggle := rfl
@[simp] theorem State.clearPend_pp : (State.clearPend s).pp = s.pp := rfl
@[simp] theorem State.clearPend_ch : (State.clearPend s).ch = s.ch := rfl
@[simp] theorem State.clearPend_pin : (State.clearPend s).pin = s.pin := rfl
@[simp] theorem State.clearPend_errlog : (State.clearPend s).errlog = s.errlog := rfl
@[simp] theorem State.clearPend_obs : (State.clearPend s).obs = s.obs := rfl
@[simp] theorem State.clearPend_env : (State.clearPend s).env = s.env := rfl

@[simp] theorem State.takePacket_cfg (p : Packet) (rest : List Packet) : (State.takePacket p rest s).cfg = s.cfg := rfl
@[simp] theorem State.takePacket_stg (p : Packet) (rest : List Packet) : (State.takePacket p rest s).stg = s.stg := rfl
@[simp] theorem State.takePacket_bs (p : Packet) (rest : List Packet) : (State.takePacket p rest s).bs = s.bs := rfl
@[simp] theorem State.takePacket_toggle (p : Packet) (rest : List Packet) : (State.takePacket p rest s).toggle = s.toggle := rfl
@[simp] theorem State.takePacket_pp (p : Packet) (rest : List Packet) : (State.takePacket p rest s).pp = s.pp := rfl
@[simp] theorem State.takePacket_ch (p : Packet) (rest : List Packet) : (State.takePacket p rest s).ch = s.ch := rfl
@[simp] theorem State.takePacket_pin (p : Packet) (rest : List Packet) : (State.takePacket p rest s).pin = s.pin := rfl
@[simp] theorem State.takePacket_errlog (p : Packet) (rest : List Packet) : (State.takePacket p rest s).errlog = s.errlog := rfl
@[simp] theorem State.takePacket_obs (p : Packet) (rest : List Packet) : (State.takePacket p rest s).obs = { s.obs with accepted := s.obs.accepted ++ [p] } := rfl
@[simp] theorem State.takePacket_env (p : Packet) (rest : List Packet) : (State.takePacket p rest s).env = { s.env with port := rest } := rfl

@[simp] theorem State.chanPulse_cfg (w : Duration) : (State.chanPulse w s).cfg = s.cfg := by
  unfold State.chanPulse; split <;> simp_all
@[simp] theorem State.chanPulse_stg (w : Duration) : (State.chanPulse w s).stg = s.stg := by
  unfold State.chanPulse; split <;> simp_all
@[simp] theorem State.chanPulse_bs (w : Duration) : (State.chanPulse w s).bs = s.bs := by
  unfold State.chanPulse; split <;> simp_all
@[simp] theorem State.chanPulse_toggle (w : Duration) : (State.chanPulse w s).toggle = s.toggle := by
  unfold State.chanPulse; split <;> simp_all
@[simp] theorem State.chanPulse_pp (w : Duration) : (State.chanPulse w s).pp = s.pp := by
  unfold State.chanPulse; split <;> simp_all
@[simp] theorem State.chanPulse_ch (w : Duration) : (State.chanPulse w s).ch = { s.ch with pulse := if s.chanAnswer = .ok then w else s.ch.pulse } := by
  unfold State.chanPulse; split <;> simp_all
@[simp] theorem State.chanPulse_pin (w : Duration) : (State.chanPulse w s).pin = s.pin := by
  unfold State.chanPulse; split <;> simp_all
@[simp] theorem State.chanPulse_errlog (w : Duration) : (State.chanPulse w s).errlog = { s.errlog with bsTickErr := s.errlog.bsTickErr || decide (s.chanAnswer = .err) } := by
  unfold State.chanPulse; split <;> simp_all
@[simp] theorem State.chanPulse_obs (w : Duration) : (State.chanPulse w s).obs = { s.obs with chanTrace := s.obs.chanTrace ++ [(.pulse w, s.chanAnswer)] } := by
  unfold State.chanPulse; split <;> simp_all
@[simp] theorem State.chanPulse_env (w : Duration) : (State.chanPulse w s).env = s.env.afterChan := by
  unfold State.chanPulse; split <;> simp_all

@[simp] theorem State.pinWrite_cfg (level : Bool) : (State.pinWrite level s).cfg = s.cfg := by
  unfold State.pinWrite; split <;> simp_all
@[simp] theorem State.pinWrite_stg (level : Bool) : (State.pinWrite level s).stg = s.stg := by
  unfold State.pinWrite; split <;> simp_all
@[simp] theorem State.pinWrite_bs (level : Bool) : (State.pinWrite level s).bs = s.bs := by
  unfold State.pinWrite; split <;> simp_all
@[simp] theorem State.pinWrite_toggle (level : Bool) : (State.pinWrite level s).toggle = s.toggle := by
  unfold State.pinWrite; split <;> simp_all
@[simp] theorem State.pinWrite_pp (level : Bool) : (State.pinWrite level s).pp = s.pp := by
  unfold State.pinWrite; split <;> simp_all
@[simp] theorem State.pinWrite_ch (level : Bool) : (State.pinWrite level s).ch = s.ch := by
  unfold State.pinWrite; split <;> simp_all
@[simp] theorem State.pinWrite_pin (level : Bool) : (State.pinWrite level s).pin = if s.pinAnswer = .ok then level else s.pin := by
  unfold State.pinWrite; split <;> simp_all
@[simp] theorem State.pinWrite_errlog (level : Bool) : (State.pinWrite level s).errlog = { s.errlog with ppTickErr := s.errlog.ppTickErr || decide (s.pinAnswer = .err) } := by
  unfold State.pinWrite; split <;> simp_all
@[simp] theorem State.pinWrite_obs (level : Bool) : (State.pinWrite level s).obs = { s.obs with pinTrace := s.obs.pinTrace ++ [(level, s.pinAnswer)] } := by
  unfold State.pinWrite; split <;> simp_all
@[simp] theorem State.pinWrite_env (level : Bool) : (State.pinWrite level s).env = s.env.afterPin := by
  unfold State.pinWrite; split <;> simp_all

@[simp] theorem State.afterMove_cfg : s.afterMove.cfg = s.cfg := by
  unfold State.afterMove; split <;> rfl
@[simp] theorem State.afterMove_stg : s.afterMove.stg = s.stg := by
  unfold State.afterMove; split <;> rfl
@[simp] theorem State.afterMove_bs : s.afterMove.bs = s.bs := by
  unfold State.afterMove; split <;> rfl
@[simp] theorem State.afterMove_toggle : s.afterMove.toggle = s.toggle := by
  unfold State.afterMove; split <;> rfl
@[simp] theorem State.afterMove_pp : s.afterMove.pp = s.pp := by
  unfold State.afterMove; split <;> rfl
@[simp] theorem State.afterMove_ch : s.afterMove.ch = s.ch := by
  unfold State.afterMove; split <;> rfl
@[simp] theorem State.afterMove_pin : s.afterMove.pin = s.pin := by
  unfold State.afterMove; split <;> rfl
@[simp] theorem State.afterMove_errlog : s.afterMove.errlog = s.errlog := by
  unfold State.afterMove; split <;> rfl
@[simp] theorem State.afterMove_obs : s.afterMove.obs = s.obs := by
  unfold State.afterMove; split <;> rfl
@[simp] theorem State.afterMove_env_port : s.afterMove.env.port = s.env.port := by
  unfold State.afterMove; split <;> rfl
@[simp] theorem State.afterMove_env_chanAnswers : s.afterMove.env.chanAnswers = s.env.chanAnswers := by
  unfold State.afterMove; split <;> rfl
@[simp] theorem State.afterMove_env_pinAnswers : s.afterMove.env.pinAnswers = s.env.pinAnswers := by
  unfold State.afterMove; split <;> rfl
@[simp] theorem State.afterMove_env_chanNo : s.afterMove.env.chanNo = s.env.chanNo := by
  unfold State.afterMove; split <;> rfl
@[simp] theorem State.afterMove_env_pinNo : s.afterMove.env.pinNo = s.env.pinNo := by
  unfold State.afterMove; split <;> rfl

@[simp] theorem Environment.afterChan_port (e : Environment) : e.afterChan.port = e.port := by
  unfold Environment.afterChan; split <;> rfl
@[simp] theorem Environment.afterChan_sched (e : Environment) : e.afterChan.sched = e.sched := by
  unfold Environment.afterChan; split <;> rfl
@[simp] theorem Environment.afterChan_moveNo (e : Environment) : e.afterChan.moveNo = e.moveNo := by
  unfold Environment.afterChan; split <;> rfl
@[simp] theorem Environment.afterChan_pinAnswers (e : Environment) : e.afterChan.pinAnswers = e.pinAnswers := by
  unfold Environment.afterChan; split <;> rfl
@[simp] theorem Environment.afterChan_pinNo (e : Environment) : e.afterChan.pinNo = e.pinNo := by
  unfold Environment.afterChan; split <;> rfl
@[simp] theorem Environment.afterPin_port (e : Environment) : e.afterPin.port = e.port := by
  unfold Environment.afterPin; split <;> rfl
@[simp] theorem Environment.afterPin_sched (e : Environment) : e.afterPin.sched = e.sched := by
  unfold Environment.afterPin; split <;> rfl
@[simp] theorem Environment.afterPin_moveNo (e : Environment) : e.afterPin.moveNo = e.moveNo := by
  unfold Environment.afterPin; split <;> rfl
@[simp] theorem Environment.afterPin_chanAnswers (e : Environment) : e.afterPin.chanAnswers = e.chanAnswers := by
  unfold Environment.afterPin; split <;> rfl
@[simp] theorem Environment.afterPin_chanNo (e : Environment) : e.afterPin.chanNo = e.chanNo := by
  unfold Environment.afterPin; split <;> rfl

/-- The two answers are all there are. -/
theorem Answer_eq_err_of_ne_ok (a : Answer) (h : a ≠ .ok) : a = .err := by cases a <;> simp_all

@[simp] theorem State.afterMove_chanAnswer : s.afterMove.chanAnswer = s.chanAnswer := by
  simp [State.chanAnswer]

@[simp] theorem State.afterMove_pinAnswer : s.afterMove.pinAnswer = s.pinAnswer := by
  simp [State.pinAnswer]

end

end Sys2Proof.Machine
end

