-- ==== Sys2Proof/Laws/Memory.lean ====
section
/-! SUPPORT. The slot buffers: every operation keeps their form, a read after a write, and what a run of
Appends leaves (R112). -/

namespace Sys2Proof.Machine

/-! ### The form of a buffer -/

theorem Memory.wf_iff {cap : SlotIndex} {cells : List Bool} :
    Memory.wf cap cells = true ↔ cells.length = cap.toNat := by simp [Memory.wf]

theorem Memory.wf_replicate (cap : SlotIndex) : Memory.wf cap (List.replicate cap.toNat false) = true := by
  simp [Memory.wf]

theorem Memory.wf_writeSlot {cap : SlotIndex} {cells : List Bool} (i : SlotIndex) (v : Bool)
    (h : Memory.wf cap cells = true) : Memory.wf cap (writeSlot cells i v) = true := by
  simpa [Memory.wf, writeSlot] using h

/-- Both buffers have their form at reset. -/
theorem Memory.wf_resetWith (cfg : Config) :
    Memory.wf cfg.cap (State.resetWith cfg).stg.cells = true ∧
      Memory.wf cfg.cap (State.resetWith cfg).bs.act = true :=
  ⟨Memory.wf_replicate _, Memory.wf_replicate _⟩

/-! ### Read after write -/

theorem readSlot_writeSlot_same {cells : List Bool} {i : SlotIndex} (v : Bool) (h : i.toNat < cells.length) :
    readSlot (writeSlot cells i v) i = some v := by
  simp [readSlot, writeSlot, h]

theorem readSlot_writeSlot_other {cells : List Bool} {i k : SlotIndex} (v : Bool) (h : k ≠ i) :
    readSlot (writeSlot cells i v) k = readSlot cells k := by
  have : i.toNat ≠ k.toNat := fun e => h (BitVec.eq_of_toNat_eq e.symm)
  simp [readSlot, writeSlot, this]

/-- A read inside the buffer answers a slot. -/
theorem readSlot_isSome {cap : SlotIndex} {cells : List Bool} {i : SlotIndex}
    (hwf : Memory.wf cap cells = true) (h : i < cap) : ∃ v, readSlot cells i = some v := by
  rw [Memory.wf_iff] at hwf
  have : i.toNat < cells.length := by rw [hwf]; exact h
  exact ⟨cells[i.toNat], by simp [readSlot, this]⟩

/-! ### One Append -/

/-- Everything one Append can do. -/
theorem append_cases (v : Bool) (s : State) :
    (s.stg.fill = s.cfg.cap ∧ append v s = .overflow s) ∨
    (s.stg.fill < s.cfg.cap ∧ append v s =
      .done { s with stg := { cells := writeSlot s.stg.cells s.stg.fill v, fill := s.stg.fill + 1 } }) ∨
    (s.cfg.cap < s.stg.fill ∧ append v s = .outside) := by
  unfold append
  by_cases h : s.stg.fill = s.cfg.cap
  · simp [h]
  · by_cases h' : s.stg.fill < s.cfg.cap
    · simp [h, h']
    · have : s.cfg.cap < s.stg.fill := by
        rw [BitVec.lt_def] at h' ⊢
        have hne : s.stg.fill.toNat ≠ s.cfg.cap.toNat := fun e => h (BitVec.eq_of_toNat_eq e)
        omega
      simp [h, h', this]

theorem toNat_succ_of_lt {i cap : SlotIndex} (h : i < cap) : (i + 1).toNat = i.toNat + 1 := by
  have h1 : i.toNat < cap.toNat := h
  have h2 : cap.toNat < 2 ^ 16 := cap.isLt
  simp [BitVec.toNat_add]
  omega

/-! ### A run of Appends -/

/-- The cells after `vs` has been written from cell `n` on. -/
def overwrite : List Bool → Nat → List Bool → List Bool
  | cells, _, [] => cells
  | cells, n, v :: vs => overwrite (cells.set n v) (n + 1) vs

@[simp] theorem overwrite_length (cells : List Bool) (n : Nat) (vs : List Bool) :
    (overwrite cells n vs).length = cells.length := by
  induction vs generalizing cells n with
  | nil => rfl
  | cons v vs ih => simp [overwrite, ih]

/-- Cell `k` after the run: the written slot inside the written range, the old one outside. -/
theorem overwrite_getElem? (cells : List Bool) (n : Nat) (vs : List Bool) (h : n + vs.length ≤ cells.length)
    (k : Nat) :
    (overwrite cells n vs)[k]? = if n ≤ k ∧ k < n + vs.length then vs[k - n]? else cells[k]? := by
  induction vs generalizing cells n with
  | nil =>
    simp [overwrite]
  | cons v vs ih =>
    simp only [List.length_cons] at h
    rw [overwrite, ih _ _ (by simp; omega)]
    by_cases hk : k = n
    · subst hk
      have h1 : ¬ (k + 1 ≤ k ∧ k < k + 1 + vs.length) := by omega
      have h2 : k ≤ k ∧ k < k + (v :: vs).length := by simp
      rw [if_neg h1, if_pos h2]
      simp [show k < cells.length by omega]
    · by_cases hin : n + 1 ≤ k ∧ k < n + 1 + vs.length
      · have h2 : n ≤ k ∧ k < n + (v :: vs).length := by simp; omega
        rw [if_pos hin, if_pos h2]
        obtain ⟨j, rfl⟩ : ∃ j, k = n + 1 + j := ⟨k - (n + 1), by omega⟩
        rw [show n + 1 + j - n = j + 1 by omega, show n + 1 + j - (n + 1) = j by omega]
        simp
      · have h2 : ¬ (n ≤ k ∧ k < n + (v :: vs).length) := by simp; omega
        rw [if_neg hin, if_neg h2]
        simp [Ne.symm hk]

/-- A run written from cell 0 stands at the front of the buffer. -/
theorem overwrite_take (cells vs : List Bool) (h : vs.length ≤ cells.length) :
    (overwrite cells 0 vs).take vs.length = vs := by
  apply List.ext_getElem?
  intro k
  rw [List.getElem?_take]
  by_cases hk : k < vs.length
  · rw [if_pos hk, overwrite_getElem? _ _ _ (by omega), if_pos (by omega)]
    simp
  · rw [if_neg hk, List.getElem?_eq_none (by omega)]

/-- A run that fills the whole buffer is the buffer. -/
theorem overwrite_full (cells vs : List Bool) (h : vs.length = cells.length) : overwrite cells 0 vs = vs := by
  have := overwrite_take cells vs (by omega)
  rwa [List.take_of_length_le (by simp; omega)] at this

/-- A run of Appends that fits: every slot is written, `stg_fill` advances by its length (R112). -/
theorem appendAll_of_fits (vs : List Bool) (s : State) (h : s.stg.fill.toNat + vs.length ≤ s.cfg.cap.toNat) :
    appendAll vs s = .done
      { s with
        stg :=
          { cells := overwrite s.stg.cells s.stg.fill.toNat vs
            fill := BitVec.ofNat 16 (s.stg.fill.toNat + vs.length) } } := by
  induction vs generalizing s with
  | nil => simp [appendAll, overwrite]
  | cons v vs ih =>
    simp only [List.length_cons] at h
    have hlt : s.stg.fill < s.cfg.cap := by rw [BitVec.lt_def]; omega
    have hne : s.stg.fill ≠ s.cfg.cap := by
      intro e
      rw [e, BitVec.lt_def] at hlt
      omega
    have happ : append v s =
        .done { s with stg := { cells := writeSlot s.stg.cells s.stg.fill v, fill := s.stg.fill + 1 } } := by
      simp [append, hne, hlt]
    have hsucc := toNat_succ_of_lt hlt
    rw [appendAll, happ]
    simp only
    rw [ih _ (by simp only [hsucc]; omega)]
    simp only [overwrite, writeSlot, hsucc, List.length_cons]
    congr 3
    congr 1
    omega

/-- A run of Appends that does not fit: it stops at `CAP` with BufferOverflow, the slots before stay
(R112, R153, R165). -/
theorem appendAll_of_overflow (vs : List Bool) (s : State) (hle : s.stg.fill ≤ s.cfg.cap)
    (h : s.cfg.cap.toNat < s.stg.fill.toNat + vs.length) :
    appendAll vs s = .overflow
      { s with
        stg :=
          { cells := overwrite s.stg.cells s.stg.fill.toNat (vs.take (s.cfg.cap.toNat - s.stg.fill.toNat))
            fill := s.cfg.cap } } := by
  induction vs generalizing s with
  | nil =>
    rw [BitVec.le_def] at hle
    simp only [List.length_nil] at h
    omega
  | cons v vs ih =>
    simp only [List.length_cons] at h
    rcases append_cases v s with ⟨he, ha⟩ | ⟨hlt, ha⟩ | ⟨hgt, _⟩
    · rw [appendAll, ha]
      have hz : s.cfg.cap.toNat - s.stg.fill.toNat = 0 := by rw [he]; omega
      rw [hz, ← he, List.take_zero]
      rfl
    · have hsucc := toNat_succ_of_lt hlt
      have hlt' : s.stg.fill.toNat < s.cfg.cap.toNat := hlt
      rw [appendAll, ha]
      simp only
      rw [ih _ (by rw [BitVec.le_def]; simp only [hsucc]; omega) (by simp only [hsucc]; omega)]
      simp only [hsucc]
      obtain ⟨d, hd⟩ : ∃ d, s.cfg.cap.toNat - s.stg.fill.toNat = d + 1 :=
        ⟨s.cfg.cap.toNat - s.stg.fill.toNat - 1, by omega⟩
      rw [hd, show s.cfg.cap.toNat - (s.stg.fill.toNat + 1) = d by omega]
      simp [overwrite, writeSlot]
    · rw [BitVec.le_def] at hle
      rw [BitVec.lt_def] at hgt
      omega

/-- Everything a run of Appends from the empty sequence can do, as every encoder uses it (R110). -/
theorem appendAll_refill (vs : List Bool) (s : State) :
    (vs.length ≤ s.cfg.cap.toNat ∧
      appendAll vs s.clearStaging = .done
        { s with stg := { cells := overwrite s.stg.cells 0 vs, fill := BitVec.ofNat 16 vs.length } }) ∨
    (s.cfg.cap.toNat < vs.length ∧
      appendAll vs s.clearStaging = .overflow
        { s with stg := { cells := overwrite s.stg.cells 0 (vs.take s.cfg.cap.toNat), fill := s.cfg.cap } }) := by
  by_cases h : vs.length ≤ s.cfg.cap.toNat
  · left
    refine ⟨h, ?_⟩
    rw [appendAll_of_fits _ _ (by simpa using h)]
    simp [State.clearStaging]
  · right
    refine ⟨by omega, ?_⟩
    rw [appendAll_of_overflow _ _ (by simp [BitVec.le_def]) (by simpa using h)]
    simp [State.clearStaging]

/-- A run of Appends keeps the form of the buffer and touches only the staging sequence. -/
theorem appendAll_frame {vs : List Bool} {s t : State} (h : appendAll vs s = .done t ∨ appendAll vs s = .overflow t) :
    t = { s with stg := t.stg } ∧ t.stg.cells.length = s.stg.cells.length := by
  induction vs generalizing s with
  | nil => rcases h with h | h <;> simp [appendAll] at h; subst h; simp
  | cons v vs ih =>
    rw [appendAll] at h
    rcases append_cases v s with ⟨_, ha⟩ | ⟨_, ha⟩ | ⟨_, ha⟩ <;> rw [ha] at h
    · simp at h
      subst h
      simp
    · have := ih h
      simp only [writeSlot, List.length_set] at this
      exact this
    · simp at h

end Sys2Proof.Machine
end

