-- ==== Sys2Proof/Laws/Ops.lean ====
section
/-! SUPPORT. One lemma for each shared operation and each agent's step that says everything it can do; the
later proofs cite these instead of unfolding the operations. -/

namespace Sys2Proof.Machine

/-! ### Devices -/

/-- Everything `ChanPulse(w)` can do (R128, R130, R227). -/
theorem chanPulse_cases (w : Duration) (s : State) :
    (s.chanAnswer = .ok ∧ s.chanPulse w =
      { s with
        ch := { s.ch with pulse := w }
        obs := { s.obs with chanTrace := s.obs.chanTrace ++ [(.pulse w, .ok)] }
        env := s.env.afterChan }) ∨
    (s.chanAnswer = .err ∧ s.chanPulse w =
      { s with
        errlog := { s.errlog with bsTickErr := true }
        obs := { s.obs with chanTrace := s.obs.chanTrace ++ [(.pulse w, .err)] }
        env := s.env.afterChan }) := by
  cases h : s.chanAnswer
  · exact .inl ⟨rfl, by simp [State.chanPulse, State.chanIssue, h]⟩
  · exact .inr ⟨rfl, by simp [State.chanPulse, State.chanIssue, State.logBsTickErr, h]⟩

/-- Everything `PinWrite(l)` can do (R174, R180, R228). -/
theorem pinWrite_cases (level : Bool) (s : State) :
    (s.pinAnswer = .ok ∧ s.pinWrite level =
      { s with
        pin := level
        obs := { s.obs with pinTrace := s.obs.pinTrace ++ [(level, .ok)] }
        env := s.env.afterPin }) ∨
    (s.pinAnswer = .err ∧ s.pinWrite level =
      { s with
        errlog := { s.errlog with ppTickErr := true }
        obs := { s.obs with pinTrace := s.obs.pinTrace ++ [(level, .err)] }
        env := s.env.afterPin }) := by
  cases h : s.pinAnswer
  · exact .inl ⟨rfl, by simp [State.pinWrite, State.pinIssue, h]⟩
  · exact .inr ⟨rfl, by simp [State.pinWrite, State.pinIssue, State.logPpTickErr, h]⟩

/-- Everything the acquisition step can do (R122). -/
theorem acquire_cases (sp cp pw : Duration) (s : State) :
    (s.chanAnswer = .ok ∧ acquire sp cp pw s =
      { s with
        bs := s.acquired sp pw
        ch := { period := cp, pulse := 0 }
        obs :=
          { s.obs with
            chanTrace := s.obs.chanTrace ++ [(.cfg cp, .ok)]
            responses := s.obs.responses ++ [⟨.ok, 0⟩] }
        env := s.env.afterChan }) ∨
    (s.chanAnswer = .err ∧ acquire sp cp pw s =
      { s with
        obs :=
          { s.obs with
            chanTrace := s.obs.chanTrace ++ [(.cfg cp, .err)]
            responses := s.obs.responses ++ [⟨.hwError, 0⟩] }
        env := s.env.afterChan }) := by
  cases h : s.chanAnswer
  · exact .inl ⟨rfl, by simp [acquire, State.chanIssue, State.respond, State.acquired, h]⟩
  · exact .inr ⟨rfl, by simp [acquire, State.chanIssue, State.respond, State.fail, h]⟩

/-! ### Runs of Appends -/

/-- Everything a command that ends with a run of Appends can answer (R112). -/
theorem Appended.toResult_next {vs : List Bool} {s t : State} (h : (appendAll vs s).toResult = .next t) :
    ∃ (stg : Staging) (code : RespCode), (code = .ok ∨ code = .bufferOverflow) ∧
      stg.cells.length = s.stg.cells.length ∧ (s.stg.fill ≤ s.cfg.cap → stg.fill ≤ s.cfg.cap) ∧
      t = State.plusResponse { s with stg := stg } code 0 := by
  have hfill : ∀ (vs : List Bool) (s u : State), appendAll vs s = .done u ∨ appendAll vs s = .overflow u →
      s.stg.fill ≤ s.cfg.cap → u.stg.fill ≤ s.cfg.cap := by
    intro vs
    induction vs with
    | nil =>
      intro s u h hle
      rcases h with h | h <;> simp [appendAll] at h
      subst h
      exact hle
    | cons v vs ih =>
      intro s u h hle
      rw [appendAll] at h
      rcases append_cases v s with ⟨he, ha⟩ | ⟨hlt, ha⟩ | ⟨_, ha⟩ <;> rw [ha] at h
      · simp at h
        subst h
        exact hle
      · simp only at h
        have hsucc := toNat_succ_of_lt hlt
        rw [BitVec.lt_def] at hlt
        have hnext : s.stg.fill + 1 ≤ s.cfg.cap := by
          rw [BitVec.le_def, hsucc]
          omega
        exact ih { s with stg := { cells := writeSlot s.stg.cells s.stg.fill v, fill := s.stg.fill + 1 } } u h
          hnext
      · simp at h
  cases hr : appendAll vs s with
  | done u =>
    rw [hr] at h
    simp only [Appended.toResult, Host.Outcome.next.injEq] at h
    obtain ⟨hu, hl⟩ := appendAll_frame (.inl hr)
    refine ⟨u.stg, .ok, .inl rfl, hl, hfill vs s u (.inl hr), ?_⟩
    rw [← h, ← hu]
    rfl
  | overflow u =>
    rw [hr] at h
    simp only [Appended.toResult, Host.Outcome.next.injEq] at h
    obtain ⟨hu, hl⟩ := appendAll_frame (.inr hr)
    refine ⟨u.stg, .bufferOverflow, .inr rfl, hl, hfill vs s u (.inr hr), ?_⟩
    rw [← h, ← hu]
    rfl
  | outside =>
    rw [hr] at h
    simp [Appended.toResult] at h

/-! ### Commands -/

/-- Everything a command can do when it answers a next state. -/
theorem exec_cases {i : Instr} {s t : State} (h : exec i s = .next t) :
    (∃ (code : RespCode) (data : Word), t = s.plusResponse code data ∧
      (data ≠ 0 → code = .ok ∧ ((∃ reg, i = .rd reg) ∨ ∃ idx, i = .seqGet idx))) ∨
    (∃ (stg : Staging) (code : RespCode), stg.cells.length = s.stg.cells.length ∧
      (s.stg.fill ≤ s.cfg.cap → stg.fill ≤ s.cfg.cap) ∧
      t = State.plusResponse { s with stg := stg } code 0 ∧
      (i = .seqClr ∨ (∃ v, i = .seqPush v) ∨ ∃ al ah cmd, i = .encNec al ah cmd)) ∨
    (∃ (stg : Staging) (code : RespCode), stg.cells.length = s.stg.cells.length ∧
      (s.stg.fill ≤ s.cfg.cap → stg.fill ≤ s.cfg.cap) ∧
      t = State.plusResponse { s with toggle := !s.toggle, stg := stg } code 0 ∧ i = .encBiph .power) ∨
    (∃ sp cp pw, i = .bsSend sp cp pw ∧ sp ≠ 0 ∧ s.bs.token = false ∧ t = acquire sp cp pw s) ∨
    (∃ sp cp pw, i = .bsSend sp cp pw ∧ sp ≠ 0 ∧ s.bs.token = true ∧ s.cfg.tokenWait ≠ 0 ∧
      t = s.startWait sp cp pw) ∨
    (∃ button key, i = .ppPress button ∧ keyCode s.cfg button = some key ∧ s.pp.phase = .idle ∧
      t = State.plusResponse { s with pp := startFrames s.cfg key } .ok 0) := by
  cases i with
  | nop =>
    simp only [exec, execNop, Host.Outcome.next.injEq] at h
    exact .inl ⟨.ok, 0, h.symm, by simp⟩
  | rd reg =>
    simp only [exec, execRd] at h
    split at h <;> simp only [Host.Outcome.next.injEq] at h
    · exact .inl ⟨.ok, _, h.symm, by simp⟩
    · exact .inl ⟨.illegal, 0, h.symm, by simp⟩
  | seqClr =>
    simp only [exec, execSeqClr, Host.Outcome.next.injEq] at h
    exact .inr (.inl ⟨{ s.stg with fill := 0 }, .ok, rfl, fun _ => by simp [BitVec.le_def], h.symm, by simp⟩)
  | seqPush v =>
    have h' : (appendAll [v] s).toResult = .next t := by
      rw [← h]
      simp only [exec, execSeqPush, appendAll]
      cases append v s <;> rfl
    obtain ⟨stg, code, _, hl, hf, rfl⟩ := Appended.toResult_next h'
    exact .inr (.inl ⟨stg, code, hl, hf, rfl, by simp⟩)
  | seqGet idx =>
    simp only [exec, execSeqGet] at h
    split at h
    · split at h <;> simp only [Host.Outcome.next.injEq, reduceCtorEq] at h
      exact .inl ⟨.ok, _, h.symm, by simp⟩
    · simp only [Host.Outcome.next.injEq] at h
      exact .inl ⟨.illegal, 0, h.symm, by simp⟩
  | encNec al ah cmd =>
    obtain ⟨stg, code, _, hl, hf, rfl⟩ := Appended.toResult_next h
    exact .inr (.inl ⟨stg, code, hl, fun _ => hf (by simp [BitVec.le_def]), rfl, by simp⟩)
  | encBiph button =>
    cases button with
    | power =>
      obtain ⟨stg, code, _, hl, hf, rfl⟩ := Appended.toResult_next h
      exact .inr (.inr (.inl ⟨stg, code, hl, fun _ => hf (by simp [BitVec.le_def]), rfl, rfl⟩))
    | up | down | cancel =>
      simp only [exec, execEncBiph, Host.Outcome.next.injEq] at h
      exact .inl ⟨.unsupported, 0, h.symm, by simp⟩
  | bsSend sp cp pw =>
    simp only [exec, execBsSend] at h
    split at h
    · simp only [Host.Outcome.next.injEq] at h
      exact .inl ⟨.illegal, 0, h.symm, by simp⟩
    · split at h
      · simp only [Host.Outcome.next.injEq] at h
        exact .inr (.inr (.inr (.inl ⟨sp, cp, pw, rfl, ‹_›, ‹_›, h.symm⟩)))
      · split at h <;> simp only [Host.Outcome.next.injEq] at h
        · exact .inl ⟨.busy, 0, h.symm, by simp⟩
        · exact .inr (.inr (.inr (.inr (.inl ⟨sp, cp, pw, rfl, ‹_›, by simp_all, ‹_›, h.symm⟩))))
  | ppPress button =>
    simp only [exec, execPpPress] at h
    split at h
    · simp only [Host.Outcome.next.injEq] at h
      exact .inl ⟨.unsupported, 0, h.symm, by simp⟩
    · split at h <;> simp only [Host.Outcome.next.injEq] at h
      · exact .inl ⟨.busy, 0, h.symm, by simp⟩
      · exact .inr (.inr (.inr (.inr (.inr ⟨button, _, rfl, ‹_›, by simp_all, h.symm⟩))))

/-! ### Agents -/

/-- Everything a chosen step can do: nothing where it is not enabled. -/
theorem takeMove_cases {m : Move} {s t : State} (h : takeMove m s = .next t) :
    (enabled m s = false ∧ t = s) ∨ (enabled m s = true ∧ perform m s = .next t) := by
  unfold takeMove at h
  split at h
  · exact .inr ⟨‹_›, h⟩
  · simp only [Host.Outcome.next.injEq] at h
    exact .inl ⟨by simp_all, h.symm⟩

/-- Everything the HOST step can do: nothing to accept, an illegal packet, or a command (R84, R87). -/
theorem hostStep_cases {s t : State} (h : hostStep s = .next t) :
    (s.env.port = [] ∧ t = s) ∨
    (∃ p rest why, s.env.port = p :: rest ∧ decode p = .illegal why ∧
      t = (s.takePacket p rest).plusResponse .illegal 0) ∨
    (∃ p rest i, s.env.port = p :: rest ∧ decode p = .command i ∧ exec i (s.takePacket p rest) = .next t) := by
  unfold hostStep at h
  split at h
  · simp only [Host.Outcome.next.injEq] at h
    exact .inl ⟨‹_›, h.symm⟩
  · rename_i p rest hp
    unfold runPacket at h
    split at h
    · simp only [Host.Outcome.next.injEq] at h
      exact .inr (.inl ⟨p, rest, _, hp, ‹_›, h.symm⟩)
    · exact .inr (.inr ⟨p, rest, _, hp, ‹_›, h⟩)

/-- Everything BS_WORK can do when it answers a next state (R127 to R130). -/
theorem bsWork_cases {s t : State} (h : bsWork s = .next t) :
    (∃ v, s.bs.cursor < s.bs.len ∧ readSlot s.bs.act s.bs.cursor = some v ∧ t = slotStep v s.clearPend) ∨
    (¬ s.bs.cursor < s.bs.len ∧ t = endStep s.clearPend) := by
  unfold bsWork at h
  split at h
  · split at h <;> simp only [Host.Outcome.next.injEq, reduceCtorEq] at h
    exact .inl ⟨_, ‹_›, ‹_›, h.symm⟩
  · simp only [Host.Outcome.next.injEq] at h
    exact .inr ⟨‹_›, h.symm⟩

/-- The slot step, field by field (R128, R130). -/
theorem slotStep_eq (v : Bool) (s : State) :
    slotStep v s =
      { s with
        bs := { s.bs with cursor := s.bs.cursor + 1 }
        ch := { s.ch with pulse := if s.chanAnswer = .ok then slotPulse s.bs.pulse v else s.ch.pulse }
        errlog := { s.errlog with bsTickErr := s.errlog.bsTickErr || decide (s.chanAnswer = .err) }
        obs := { s.obs with chanTrace := s.obs.chanTrace ++ [(.pulse (slotPulse s.bs.pulse v), s.chanAnswer)] }
        env := s.env.afterChan } := by
  have hs : slotStep v s =
      { s.chanPulse (slotPulse s.bs.pulse v) with
        bs := { (s.chanPulse (slotPulse s.bs.pulse v)).bs with
          cursor := (s.chanPulse (slotPulse s.bs.pulse v)).bs.cursor + 1 } } := rfl
  rcases chanPulse_cases (slotPulse s.bs.pulse v) s with ⟨ha, he⟩ | ⟨ha, he⟩ <;>
    rw [hs, he] <;> simp [ha]

/-- The end step, field by field (R129, R130). -/
theorem endStep_eq (s : State) :
    endStep s =
      { s with
        bs := { s.bs with run := false, token := false }
        ch := { s.ch with pulse := if s.chanAnswer = .ok then 0 else s.ch.pulse }
        errlog := { s.errlog with bsTickErr := s.errlog.bsTickErr || decide (s.chanAnswer = .err) }
        obs := { s.obs with chanTrace := s.obs.chanTrace ++ [(.pulse 0, s.chanAnswer)] }
        env := s.env.afterChan } := by
  have ha' : State.chanAnswer { s with bs := { s.bs with run := false } } = s.chanAnswer := rfl
  rcases chanPulse_cases 0 { s with bs := { s.bs with run := false } } with ⟨ha, he⟩ | ⟨ha, he⟩ <;>
    rw [ha'] at ha <;> simp only [endStep, he, ha] <;> simp

/-- Everything PP_TICK can do when it answers a next state (R174, R176, R177). -/
theorem ppTick_cases {s t : State} (h : ppTick s = .next t) :
    (s.pp.phase = .preamble ∧
      t = s.ppOutput (decide (s.pp.pre = 0)) (afterPreambleTick s.cfg.ppPreambleTicks s.pp)) ∨
    (s.pp.phase = .data ∧ s.pp.bit ≤ 23 ∧
      t = s.ppOutput (ppLevel (s.pp.payload.getLsbD (23 - s.pp.bit.toNat)) s.pp.sub) (afterDataTick s.pp)) := by
  unfold ppTick at h
  split at h
  · simp at h
  · simp only [Host.Outcome.next.injEq] at h
    exact .inl ⟨‹_›, h.symm⟩
  · split at h <;> simp only [Host.Outcome.next.injEq, reduceCtorEq] at h
    exact .inr ⟨‹_›, ‹_›, h.symm⟩

/-- A tick's output, field by field (R174, R180). -/
theorem ppOutput_eq (level : Bool) (p : PulsePattern) (s : State) :
    s.ppOutput level p =
      { s with
        pp := p
        pin := if s.pinAnswer = .ok then level else s.pin
        errlog := { s.errlog with ppTickErr := s.errlog.ppTickErr || decide (s.pinAnswer = .err) }
        obs := { s.obs with pinTrace := s.obs.pinTrace ++ [(level, s.pinAnswer)] }
        env := s.env.afterPin } := by
  rcases pinWrite_cases level s with ⟨ha, he⟩ | ⟨ha, he⟩ <;>
    simp only [State.ppOutput, he, ha] <;> simp

end Sys2Proof.Machine
end

