-- ==== Sys2Proof/Laws/Facade.lean ====
section
/-! SUPPORT. What the operations of the facade's procedures can do: going on with an outcome, waiting for an
answer, issuing a command at a free port. -/

namespace Sys2Proof.Machine

/-! ### Going on with an outcome -/

@[simp] theorem andThen_of_next {α β : Type} (x : α) (f : α → Host.Outcome β Fault Refusal) :
    andThen (.next x) f = f x := rfl

/-- A procedure that goes on to a value has gone through a value. -/
theorem andThen_next {α β : Type} {r : Host.Outcome α Fault Refusal} {f : α → Host.Outcome β Fault Refusal} {y : β}
    (h : andThen r f = .next y) : ∃ x, r = .next x ∧ f x = .next y := by
  cases r with
  | next x => exact ⟨x, rfl, h⟩
  | fault _ => simp [andThen] at h
  | refused _ => simp [andThen] at h

/-! ### Waiting for an answer -/

/-- Where nothing is unanswered the host does not wait. -/
theorem untilAnswered_of_open (k : Nat) {s : State} (h : s.bs.wait = false) :
    untilAnswered k s = .next (k, s) := by
  cases k <;> simp [untilAnswered, h]

/-- Where a command is unanswered the machine takes its next step. -/
theorem untilAnswered_of_waiting (k : Nat) {s : State} (h : s.bs.wait = true) :
    untilAnswered (k + 1) s = andThen (step s) (untilAnswered k) := by
  simp [untilAnswered, h]

/-- Whatever every step keeps, waiting keeps. -/
theorem untilAnswered_keeps {P : State → Prop} (hstep : ∀ s t, P s → step s = .next t → P t) {k left : Nat}
    {s t : State} (hs : P s) (h : untilAnswered k s = .next (left, t)) : P t := by
  induction k generalizing s with
  | zero =>
    simp only [untilAnswered, Host.Outcome.next.injEq, Prod.mk.injEq] at h
    exact h.2 ▸ hs
  | succ k ih =>
    cases hw : s.bs.wait with
    | false =>
      rw [untilAnswered_of_open _ hw] at h
      simp only [Host.Outcome.next.injEq, Prod.mk.injEq] at h
      exact h.2 ▸ hs
    | true =>
      rw [untilAnswered_of_waiting k hw] at h
      obtain ⟨u, hu, ht⟩ := andThen_next h
      exact ih (hstep s u hs hu) ht

/-- The wait has ended, or the steps are used up. -/
theorem untilAnswered_ends {k left : Nat} {s t : State} (h : untilAnswered k s = .next (left, t)) :
    t.bs.wait = false ∨ left = 0 := by
  induction k generalizing s with
  | zero =>
    simp only [untilAnswered, Host.Outcome.next.injEq, Prod.mk.injEq] at h
    exact .inr h.1.symm
  | succ k ih =>
    cases hw : s.bs.wait with
    | false =>
      rw [untilAnswered_of_open _ hw] at h
      simp only [Host.Outcome.next.injEq, Prod.mk.injEq] at h
      exact .inl (h.2 ▸ hw)
    | true =>
      rw [untilAnswered_of_waiting k hw] at h
      obtain ⟨u, _, ht⟩ := andThen_next h
      exact ih ht

/-! ### Issuing a command -/

/-- What the host knows right after a response. -/
theorem State.lastAnswer_of_responded {s : State} {before : List Response} {r : Response} (hw : s.bs.wait = false)
    (h : s.obs.responses = before ++ [r]) : s.lastAnswer = .done r.code := by
  simp [State.lastAnswer, hw, h]

/-- A command that the free port accepts and answers at once takes no step of the machine. -/
theorem issue_of_answered {i : Instr} {s t : State} {before : List Response} {r : Response} (k : Nat)
    (hs : s.bs.wait = false) (h : acceptCommand i s = .next t) (ht : t.bs.wait = false)
    (hr : t.obs.responses = before ++ [r]) : issue i k s = .next ⟨k, t, .done r.code⟩ := by
  simp [issue, untilAnswered_of_open k hs, hs, h, untilAnswered_of_open k ht,
    State.lastAnswer_of_responded ht hr]

/-- A command that the free port accepts and that waits: the procedure waits with it. -/
theorem issue_of_waiting {i : Instr} {s t : State} (k : Nat) (hs : s.bs.wait = false)
    (h : acceptCommand i s = .next t) :
    issue i k s = andThen (untilAnswered k t) fun a => .next ⟨a.1, a.2, a.2.lastAnswer⟩ := by
  simp [issue, untilAnswered_of_open k hs, hs, h]

end Sys2Proof.Machine
end

