-- ==== Sys2Proof/Laws/PerInstr.lean ====
section
/-! SUPPORT. Statements made of every command as syntax, one lemma per constructor. -/

/-- The packet of a command carries the command's opcode in `p[31:24]` (R80, R83). -/
def Sys2Proof.Laws.OpcodeByte.Statement (i : Sys2Proof.Instr) : Prop :=
  Sys2Proof.Packet.op (Sys2Proof.encode i) = i.opcode

namespace Sys2Proof.Laws.OpcodeByte

theorem nop : Statement .nop := Packet.op_ofFields _ _ _ _ _ _ _
theorem rd (reg : Byte) : Statement (.rd reg) := Packet.op_ofFields _ _ _ _ _ _ _
theorem seqClr : Statement .seqClr := Packet.op_ofFields _ _ _ _ _ _ _
theorem seqPush (v : Bool) : Statement (.seqPush v) := Packet.op_ofFields _ _ _ _ _ _ _
theorem seqGet (idx : SlotIndex) : Statement (.seqGet idx) := Packet.op_ofFields _ _ _ _ _ _ _
theorem encNec (al ah cmd : Byte) : Statement (.encNec al ah cmd) := Packet.op_ofFields _ _ _ _ _ _ _
theorem encBiph (button : Button) : Statement (.encBiph button) := Packet.op_ofFields _ _ _ _ _ _ _
theorem bsSend (sp cp pw : Duration) : Statement (.bsSend sp cp pw) := Packet.op_ofFields _ _ _ _ _ _ _
theorem ppPress (button : Button) : Statement (.ppPress button) := Packet.op_ofFields _ _ _ _ _ _ _

end Sys2Proof.Laws.OpcodeByte
end

