-- ==== Sys2Proof/Tests/Slice0.lean ====
section
/-! SUPPORT. Tests: expected results are those of 95_test_vectors.md (V, P) or computed by hand from the rule
named; and, for every statement of Obligations.lean with hypotheses, a state and operands that meet them. -/

set_option Elab.async false

namespace Sys2Proof.Tests

open Sys2Proof.Machine

/-! ### Helpers -/

/-- The illustrative configuration of 95_test_vectors.md, with a capacity and a wait bound to choose. -/
def config (cap : SlotIndex) (tokenWait : Duration) : Config where
  cap := cap
  idxW := 16
  durW := 32
  tbUnit := 1
  tokenWait := tokenWait
  necSlotPeriod := 562
  necBaseUnit := 2248
  necCarrierPeriod := 26
  necCarrierPulse := 9
  biphSlotPeriod := 889
  biphCarrierPeriod := 28
  biphCarrierPulse := 7
  biphAddr := 0
  biphCmdPower := 12
  necButtons := { power := some ⟨0x00, 0x30, 0x4F⟩, up := none, down := none, cancel := none }
  ppBaseUnit := 500
  ppPreambleTicks := 4
  ppFixedCode := 0xABCDE
  ppShift := 5
  ppKeyUp := 0x01
  ppKeyDown := 0x02
  ppKeyCancel := 0x04
  ppRetryDefault := 5

/-- After reset, with the next answers of the channel and of the pin. -/
def fresh (cap : SlotIndex) (tokenWait : Duration) (chan pin : List Answer) : State :=
  { State.resetWith (config cap tokenWait) with
    env :=
      { port := [], sched := [], chanAnswers := chan, pinAnswers := pin, moveNo := 0, chanNo := 0, pinNo := 0 } }

/-- The state a result holds. -/
def nextOf : Result → Option State
  | .next s => some s
  | .fault _ => none
  | .refused _ => none

/-- The state a result holds, where it holds one. -/
def after (r : Result) : State := (nextOf r).getD (fresh 4 0 [] [])

theorem completes {r : Result} (h : (nextOf r).isSome = true) : r = .next (after r) := by
  cases r <;> simp_all [nextOf, after]

/-- The machine with one packet offered and the host's step chosen. -/
def withPacket (p : Packet) (s : State) : State :=
  { s with env := { s.env with port := [p], sched := [.host] } }

/-- The machine with the given step chosen. -/
def withMove (m : Move) (s : State) : State := { s with env := { s.env with sched := [m] } }

/-- The machine after the host's packet has run. -/
def ran (p : Packet) (s : State) : State := after (step (withPacket p s))

/-- The machine after the given step. -/
def moved (m : Move) (s : State) : State := after (step (withMove m s))

/-- What the invariants ask for, as a computation (the wait clause in its concrete form). -/
def invHolds (s : State) : Bool :=
  s.cfg.wf && Memory.wf s.cfg.cap s.stg.cells && Memory.wf s.cfg.cap s.bs.act && decide (s.stg.fill ≤ s.cfg.cap) &&
    decide (s.bs.len ≤ s.cfg.cap) && decide (s.bs.cursor ≤ s.bs.len) && decide (s.bs.token = s.bs.run) &&
    decide (s.bs.pend = true → s.bs.token = true) && decide (s.bs.run = true → s.bs.slotPeriod ≠ 0) &&
    decide (s.bs.wait = true → s.bs.waitSp ≠ 0 ∧ s.cfg.tokenWait ≠ 0 ∧
      decode (s.obs.accepted.getLast?.getD 0) = .command (.bsSend s.bs.waitSp s.bs.waitCp s.bs.waitPw)) &&
    decide (s.bs.wait = false → s.bs.waitSp = 0 ∧ s.bs.waitCp = 0 ∧ s.bs.waitPw = 0) &&
    decide (s.obs.responses.length + s.bs.wait.toNat = s.obs.accepted.length) &&
    decide (s.pp.run = true ↔ s.pp.phase ≠ .idle) &&
    decide (s.pp.phase = .preamble →
      s.pp.pre.toNat < s.cfg.ppPreambleTicks.toNat ∧ s.pp.bit = 0 ∧ s.pp.sub = 0) &&
    decide (s.pp.phase = .data → s.pp.pre = 0 ∧ s.pp.bit < 24) &&
    decide (s.pp.phase = .idle → s.pp.pre = 0 ∧ s.pp.bit = 0 ∧ s.pp.sub = 0) &&
    decide (s.pp.run = true → s.pp.retries ≤ s.cfg.ppRetryDefault) &&
    decide (s.bs.token = true → s.ch.pulse = 0 ∨ s.ch.pulse = s.bs.pulse)

theorem inv_of_holds {s : State} (h : invHolds s = true) : Inv s := by
  simp only [invHolds, Bool.and_eq_true, decide_eq_true_eq] at h
  obtain ⟨⟨⟨⟨⟨⟨⟨⟨⟨⟨⟨⟨⟨⟨⟨⟨⟨h1, h2⟩, h3⟩, h4⟩, h5⟩, h6⟩, h7⟩, h8⟩, h9⟩, h10⟩, h11⟩, h12⟩, h13⟩, h14⟩, h15⟩, h16⟩, h17⟩,
    h18⟩ := h
  refine ⟨h1, h2, h3, h4, h5, h6, h7, h8, h9, fun hw => ?_, h11, h12, h13, h14, h15, h16, h17, h18⟩
  obtain ⟨hsp, htw, hd⟩ := h10 hw
  refine ⟨hsp, htw, ?_⟩
  cases hl : s.obs.accepted.getLast? with
  | none => simp [hw, List.getLast?_eq_none_iff.mp hl] at h12
  | some p => exact ⟨p, rfl, by simpa [hl] using hd⟩

/-- What the timing invariant asks for, as a computation. -/
def timedHolds (c : Clock) (s : State) : Bool :=
  decide (s.bs.run = true → c.burstTicks = s.bs.cursor.toNat + s.bs.pend.toNat) &&
    decide (s.bs.run = true → c.burstTicks ≠ 0 →
      c.burstStart + (c.burstTicks - 1) * s.bs.slotPeriod.toNat ≤ c.now) &&
    decide (s.bs.run = true → c.now ≤ c.nextSlotTick s) &&
    decide (s.pp.run = true →
      c.pressTicks + s.pp.retries.toNat * frameTicks s.cfg =
        s.cfg.ppRetryDefault.toNat * frameTicks s.cfg + s.framePosition)

theorem timed_of_holds {c : Clock} {s : State} (h : timedHolds c s = true) : TimedInv c s := by
  simp only [timedHolds, Bool.and_eq_true, decide_eq_true_eq] at h
  exact ⟨h.1.1.1, h.1.1.2, h.1.2, h.2⟩

theorem timed_completes {o : Option (Clock × State)} (h : o.isSome = true) :
    o = some ((o.getD (⟨0, 0, 0, 0, 0, 0, 0⟩, fresh 4 0 [] [])).1,
      (o.getD (⟨0, 0, 0, 0, 0, 0, 0⟩, fresh 4 0 [] [])).2) := by
  cases o <;> simp_all

/-- What a press comes to. -/
def pressOf (r : Host.Outcome Press Fault Refusal) : Option Press :=
  match r with
  | .next p => some p
  | .fault _ => none
  | .refused _ => none

theorem press_of {r : Host.Outcome Press Fault Refusal} {left : Nat} {f : FacadeResult}
    (h : (pressOf r).map (fun p => (p.left, p.result)) = some (left, f)) : ∃ t, r = .next ⟨left, t, f⟩ := by
  cases r with
  | next p =>
    obtain ⟨l, t, g⟩ := p
    simp only [pressOf, Option.map_some, Option.some.injEq, Prod.mk.injEq] at h
    exact ⟨t, by rw [h.1, h.2]⟩
  | fault _ => simp [pressOf] at h
  | refused _ => simp [pressOf] at h

/-- What waiting comes to. -/
def waitOf (r : Host.Outcome (Nat × State) Fault Refusal) : Option (Nat × State) :=
  match r with
  | .next x => some x
  | .fault _ => none
  | .refused _ => none

theorem wait_of {r : Host.Outcome (Nat × State) Fault Refusal} {left : Nat} {b : Bool}
    (h : (waitOf r).map (fun x => (x.1, x.2.bs.wait)) = some (left, b)) :
    ∃ t, r = .next (left, t) ∧ t.bs.wait = b := by
  cases r with
  | next x =>
    simp only [waitOf, Option.map_some, Option.some.injEq, Prod.mk.injEq] at h
    exact ⟨x.2, by rw [← h.1], h.2⟩
  | fault _ => simp [waitOf] at h
  | refused _ => simp [waitOf] at h

/-! ### States -/

/-- `CAP` = 4, the sequence `101` of V10 staged, and the channel's next answers. -/
def staged101 (tokenWait : Duration) (chan : List Answer) : State :=
  { fresh 4 tokenWait chan [] with stg := { cells := [true, false, true, false], fill := 3 } }

/-- `BS.SEND 10, 4, 2` (95_test_vectors.md 2.1). -/
def send1042 : Packet := 0x00000002000000040000000A30000000

/-- The burst of `101` right after its BS.SEND. -/
def bursting (tokenWait : Duration) (chan : List Answer) : State := ran send1042 (staged101 tokenWait (.ok :: chan))

/-- The same burst with a second BS.SEND waiting. -/
def waiting (chan : List Answer) : State := ran send1042 (bursting 100 chan)

/-- The same burst after its last slot step, work pending for the end step, no request waiting. -/
def ending (chan : List Answer) : State :=
  moved .bsTick (moved .bsWork (moved .bsTick (moved .bsWork (moved .bsTick (moved .bsWork (moved .bsTick
    (bursting 0 (.ok :: .ok :: .ok :: chan))))))))

/-- A request still waits when the burst has ended. -/
def grantable (chan : List Answer) : State :=
  { waiting chan with
    bs := { (waiting chan).bs with token := false, run := false, pend := false, cursor := 3, len := 3 } }

/-- PP.PRESS UP accepted, with the pin's next answers. -/
def pressed (pin : List Answer) : State := ran 0x40000001 (fresh 4 0 [] pin)

/-- The last tick of the preamble is due. -/
def preambleEnd (pin : List Answer) : State :=
  { pressed pin with pp := { (pressed pin).pp with pre := 3 } }

/-- The last tick of a frame is due. -/
def frameLast (retries : Byte) (pin : List Answer) : State :=
  { pressed pin with pp := { (pressed pin).pp with phase := .data, bit := 23, sub := 3, retries := retries } }

/-- A display press whose burst is in flight (V45), with the steps to come and the channel's next answers. -/
def displaying (tokenWait : Duration) (chan : List Answer) (moves : List Move) : State :=
  match (pressOf (pressDisplay .power 0 (fresh 28 tokenWait (.ok :: chan) []))).map Press.state with
  | some s => { s with env := { s.env with sched := moves } }
  | none => fresh 28 tokenWait [] []

/-- A burst of the empty sequence in flight (V23), with a wait bound, the channel's next answers and the steps
to come. -/
def holding (cap : SlotIndex) (chan : List Answer) (moves : List Move) : State :=
  let s := ran send1042 (fresh cap 100 (.ok :: chan) [])
  { s with env := { s.env with sched := moves } }

/-! ### WellFormed: each check has an ill-formed term it refuses -/

theorem test_wf_refuses_rd_0C : Instr.wellFormed (.rd 0x0C) = false := by decide
theorem test_wf_accepts_rd_0B : Instr.wellFormed (.rd 0x0B) = true := by decide
theorem test_wf_refuses_send_period_0 : Instr.wellFormed (.bsSend 0 26 9) = false := by decide
theorem test_wf_accepts_send_period_1 : Instr.wellFormed (.bsSend 1 0 0) = true := by decide

/-! ### Decoding: the packets of 95_test_vectors.md 2.1, and words written out from R80, R81 and R83 -/

theorem test_decode_nop : decode 0x00000000000000000000000000000000 = .command .nop := by decide
theorem test_decode_rd_stg_fill : decode 0x00000000000000000000000001080000 = .command (.rd 0x08) := by decide
theorem test_decode_seq_clr : decode 0x00000000000000000000000010000000 = .command .seqClr := by decide
theorem test_decode_seq_push : decode 0x00000000000000000000000011000001 = .command (.seqPush true) := by decide
theorem test_decode_seq_get : decode 0x00000000000000000000000012000100 = .command (.seqGet 256) := by decide
theorem test_decode_enc_nec :
    decode 0x0000000000000000000000002000304F = .command (.encNec 0x00 0x30 0x4F) := by decide
theorem test_decode_enc_biph : decode 0x00000000000000000000000021000002 = .command (.encBiph .down) := by decide
theorem test_decode_bs_send :
    decode 0x000000090000001A0000023230000000 = .command (.bsSend 562 26 9) := by decide
theorem test_decode_pp_press : decode 0x00000000000000000000000040000003 = .command (.ppPress .cancel) := by decide
theorem test_decode_V3 : decode 0x00000000000000000000000002000000 = .illegal .unknownOpcode := by decide
theorem test_decode_V4 : decode 0x00000000000000000000000000010000 = .illegal .reservedNonzero := by decide
theorem test_decode_V7 : decode 0x0000000000000000000000012000304F = .illegal .reservedNonzero := by decide
theorem test_decode_V8 : decode 0x00000000000000000000000021000004 = .illegal .reservedNonzero := by decide
theorem test_decode_V9 : decode 0xFFFFFFFFFFFFFFFFFFFFFFFFFFFFFFFF = .illegal .unknownOpcode := by decide
theorem test_encode_bs_send : encode (.bsSend 562 26 9) = 0x000000090000001A0000023230000000 := by decide
theorem test_decode_table_word : decodeTableWord 128 0x2000304F = some (.encNec 0x00 0x30 0x4F) := by decide

/-! ### Commands -/

/-- V42: RD CAPACITY, `CAP` = 154. -/
theorem test_rd_capacity :
    (after (exec (.rd 0x0B) (fresh 154 0 [] []))).obs.responses = [⟨.ok, 154⟩] := by decide +kernel
/-- V37: PP_COUNT = `0x00002005` at bit 0, sub-phase 1, five retries. -/
theorem test_rd_pp_count :
    (after (exec (.rd 0x0A)
      { pressed [] with pp := { (pressed []).pp with phase := .data, sub := 1 } })).obs.responses.getLast? =
        some ⟨.ok, 0x00002005⟩ := by decide +kernel
/-- V12: the cells keep their values, `stg_fill` = 0. -/
theorem test_seq_clr :
    (after (exec .seqClr (staged101 0 []))).stg = { cells := [true, false, true, false], fill := 0 } := by
  decide +kernel
/-- V13, the fourth push fits. -/
theorem test_seq_push_last :
    (after (exec (.seqPush true) (staged101 0 []))).stg = { cells := [true, false, true, true], fill := 4 } := by
  decide +kernel
/-- V13, the fifth push. -/
theorem test_seq_push_overflow :
    after (exec (.seqPush true) { staged101 0 [] with stg := { cells := [true, true, true, true], fill := 4 } }) =
      State.plusResponse { staged101 0 [] with stg := { cells := [true, true, true, true], fill := 4 } }
        .bufferOverflow 0 := by decide +kernel
/-- V11. -/
theorem test_seq_get_2 : (after (exec (.seqGet 2) (staged101 0 []))).obs.responses = [⟨.ok, 1⟩] := by decide +kernel
/-- V11: index 3 is a cell, but not a staged slot. -/
theorem test_seq_get_3 : (after (exec (.seqGet 3) (staged101 0 []))).obs.responses = [⟨.illegal, 0⟩] := by
  decide +kernel
/-- V1: bits of `0x4F`, slots 60 to 85 of the frame. -/
theorem test_enc_nec_command_byte :
    ((after (exec (.encNec 0x00 0x30 0x4F) (fresh 154 0 [] []))).staged.drop 60).take 26 =
      [true, false, false, false, true, false, false, false, true, false, false, false, true, false, false, false,
       true, false, true, false, true, false, false, false, true, false] := by decide +kernel
/-- V19b: 137 of 138 slots fit. -/
theorem test_enc_nec_overflow :
    (after (exec (.encNec 0xFF 0xFF 0x00) (fresh 137 0 [] []))).stg.fill = 137 ∧
      (after (exec (.encNec 0xFF 0xFF 0x00) (fresh 137 0 [] []))).obs.responses = [⟨.bufferOverflow, 0⟩] := by
  decide +kernel
/-- V28: code `0x380C`. -/
theorem test_enc_biph_V28 :
    (after (exec (.encBiph .power) (fresh 28 0 [] []))).staged =
      [false, true, false, true, false, true, true, false, true, false, true, false, true, false, true, false,
       true, false, true, false, false, true, false, true, true, false, true, false] := by decide +kernel
/-- V31: the toggle stays flipped. -/
theorem test_enc_biph_V31 :
    (after (exec (.encBiph .power) (fresh 10 0 [] []))).toggle = true ∧
      (after (exec (.encBiph .power) (fresh 10 0 [] []))).stg =
        { cells := [false, true, false, true, false, true, true, false, true, false], fill := 10 } := by
  decide +kernel
/-- V24: the channel refuses the configuration. -/
theorem test_bs_send_refused :
    (after (exec (.bsSend 10 4 2) (staged101 0 [.err]))).obs.responses = [⟨.hwError, 0⟩] ∧
      (after (exec (.bsSend 10 4 2) (staged101 0 [.err]))).bs = (staged101 0 []).bs := by decide +kernel
/-- V27: the token is held, `TOKEN_WAIT` = 0. -/
theorem test_bs_send_busy :
    (after (exec (.bsSend 562 26 9) (bursting 0 []))).obs.responses = [⟨.ok, 0⟩, ⟨.busy, 0⟩] := by decide +kernel
/-- V36. -/
theorem test_pp_press_up :
    (pressed []).pp.payload = 0x579BC1 ∧ (pressed []).statusWord = 0x00000050 ∧ (pressed []).obs.pinTrace = [] := by
  decide +kernel
/-- V34f: bit 19 of the fixed code is lost. -/
theorem test_pp_payload_V34f : ppPayload { config 4 0 with ppFixedCode := 0x80000 } 0x02 = 0x000002 := by
  decide +kernel

/-! ### Internal steps -/

/-- V26: the second tick is dropped and logged. -/
theorem test_bs_tick_overrun :
    (after (takeMove .bsTick (moved .bsTick (bursting 0 [])))).errlog.word = 0x00000004 ∧
      (after (takeMove .bsTick (moved .bsTick (bursting 0 [])))).bs = (moved .bsTick (bursting 0 [])).bs := by
  decide +kernel
/-- V25: an error in flight; the cursor advances all the same. -/
theorem test_bs_work_error :
    (after (takeMove .bsWork (moved .bsTick (bursting 0 [.err])))).errlog.word = 0x00000001 ∧
      (after (takeMove .bsWork (moved .bsTick (bursting 0 [.err])))).bs.cursor = 1 ∧
      (after (takeMove .bsWork (moved .bsTick (bursting 0 [.err])))).ch.pulse = 0 := by decide +kernel
/-- R129: the end step. -/
theorem test_bs_work_end :
    (after (takeMove .bsWork (ending [.ok]))).obs.chanTrace.map Prod.fst =
        [.cfg 4, .pulse 2, .pulse 0, .pulse 2, .pulse 0] ∧
      (after (takeMove .bsWork (ending [.ok]))).quiescent = true := by decide +kernel
/-- V22: the waiting request is answered BUSY, the burst goes on. -/
theorem test_bs_timeout :
    (after (takeMove .bsTimeout (waiting []))).obs.responses = [⟨.ok, 0⟩, ⟨.busy, 0⟩] ∧
      (after (takeMove .bsTimeout (waiting []))).bs = (bursting 100 []).bs := by decide +kernel
/-- V21: the waiting request is granted, with `ChanCfg(4)`. -/
theorem test_bs_grant :
    (after (takeMove .bsGrant (grantable [.ok]))).obs.chanTrace.getLast? = some (.cfg 4, .ok) ∧
      (after (takeMove .bsGrant (grantable [.ok]))).bs.token = true ∧
      (after (takeMove .bsGrant (grantable [.ok]))).bs.wait = false := by decide +kernel
/-- R176: the first tick writes the pin high. -/
theorem test_pp_tick_first :
    (after (takeMove .ppTick (pressed [.ok]))).obs.pinTrace = [(true, .ok)] ∧
      (after (takeMove .ppTick (pressed [.ok]))).pin = true := by decide +kernel
/-- V40: the last tick of the last frame. -/
theorem test_pp_tick_last :
    (after (takeMove .ppTick (frameLast 0 [.ok]))).statusWord = 0 ∧
      (after (takeMove .ppTick (frameLast 0 [.ok]))).pp.payload = 0x579BC1 := by decide +kernel
/-- V44: a burst in flight is dropped, no operation is issued. -/
theorem test_reset_step :
    after (takeMove .reset (bursting 0 [.ok])) = fresh 4 0 [.ok] [] := by decide +kernel
/-- The step right after `withFetchWord` on the state after reset runs the packet. -/
theorem test_step_runs_fetched_nop :
    (nextOf (step (State.reset.withFetchWord 128 0))).map (fun s => s.obs.responses) = some [⟨.ok, 0⟩] := by
  decide +kernel
/-- V5, at the port. -/
theorem test_step_rd_0C :
    (ran 0x010C0000 (fresh 4 0 [] [])).obs.responses = [⟨.illegal, 0⟩] := by decide +kernel
/-- V46: a display press of UP touches no channel and no pin. -/
theorem test_press_display_up :
    (pressOf (pressDisplay .up 0 (fresh 4 0 [] []))).map
      (fun p => (p.result, p.state.obs.chanTrace, p.state.obs.pinTrace)) = some (.done .unsupported, [], []) := by
  decide +kernel
/-- V47: BUSY at once, the toggle has flipped. -/
theorem test_press_display_busy :
    (pressOf (pressDisplay .power 0 (displaying 0 [] []))).map (fun p => (p.result, p.state.toggle)) =
      some (.done .busy, false) := by decide +kernel
/-- R123, R125, R197: the press waits for two steps; BS_TIMEOUT answers BUSY, which is its result. -/
theorem test_press_display_timeout :
    (pressOf (pressDisplay .power 9 (displaying 100 [] [.bsTick, .bsTimeout]))).map (fun p => (p.left, p.result)) =
      some (7, .done .busy) := by decide +kernel
/-- R124, R197: the burst in flight (V23) ends, BS_GRANT acquires for the waiting press, whose result is OK. -/
theorem test_press_display_granted :
    (pressOf (pressDisplay .power 9 (holding 28 [.ok, .ok] [.bsTick, .bsWork, .bsGrant]))).map
      (fun p => (p.left, p.result, p.state.obs.chanTrace.map Prod.fst)) =
        some (6, .done .ok, [.cfg 4, .pulse 0, .cfg 28]) := by decide +kernel

/-! ### Witnesses: a state and operands that meet a statement's hypotheses -/

theorem test_wit_EncodeOfDecode : decode 0x000000090000001A0000023230000000 = .command (.bsSend 562 26 9) := by decide
theorem test_wit_DecoderFollowsOpcodeTable :
    decode 0x12000100 = .command (.seqGet 256) ∧ Instr.row (.seqGet 0) ∈ opcodeRows ∧
      (Instr.row (.seqGet 0)).selectedBy 0x12000100 = true := by decide +kernel

theorem test_wit_IllegalPacketsAnsweredOnly_opcode : illegalPacket 0x02000000 (fresh 4 0 [] []) :=
  .inl (by decide)
theorem test_wit_IllegalPacketsAnsweredOnly_reserved : illegalPacket 0x00010000 (fresh 4 0 [] []) :=
  .inr (.inl ⟨Instr.row .nop, by decide, by decide, by decide⟩)
theorem test_wit_IllegalPacketsAnsweredOnly_rd : illegalPacket 0x010C0000 (fresh 4 0 [] []) :=
  .inr (.inr (.inl ⟨0x0C, by decide, by decide⟩))
theorem test_wit_IllegalPacketsAnsweredOnly_send : illegalPacket 0x000000090000001A0000000030000000 (fresh 4 0 [] []) :=
  .inr (.inr (.inr (.inl ⟨26, 9, by decide⟩)))
theorem test_wit_IllegalPacketsAnsweredOnly_get : illegalPacket 0x12000003 (staged101 0 []) :=
  .inr (.inr (.inr (.inr ⟨3, by decide, by decide⟩)))
theorem test_wit_IllegalPacketsAnsweredOnly_legal :
    ¬ illegalPacket 0x12000002 (staged101 0 []) ∧
      runPacket 0x12000002 (staged101 0 []) = .next (after (runPacket 0x12000002 (staged101 0 []))) := by
  have hd : decode 0x12000002 = .command (.seqGet 2) := by decide
  refine ⟨?_, completes (by decide +kernel)⟩
  rintro (h | ⟨r, hr, hop, hm⟩ | ⟨reg, h, -⟩ | ⟨cp, pw, h⟩ | ⟨idx, h, hle⟩)
  · exact h (by decide)
  · revert r; decide +kernel
  · rw [hd] at h
    simp at h
  · rw [hd] at h
    simp at h
  · rw [hd] at h
    simp only [Decoded.command.injEq, Instr.seqGet.injEq] at h
    subst h
    exact absurd hle (by decide)

theorem test_wit_StepRunsDecodedCommand :
    (withPacket 0x11000001 (staged101 0 [])).bs.wait = false ∧
      (withPacket 0x11000001 (staged101 0 [])).env.sched = .host :: [] ∧
      (withPacket 0x11000001 (staged101 0 [])).env.port = 0x11000001 :: [] ∧
      decode 0x11000001 = .command (.seqPush true) := by decide +kernel
theorem test_wit_PortAcceptsOneCommandAtATime_waiting : (waiting []).bs.wait = true := by decide +kernel
theorem test_wit_PortAcceptsOneCommandAtATime_open :
    (withPacket 0 (staged101 0 [])).bs.wait = false ∧ (withPacket 0 (staged101 0 [])).env.port = 0 :: [] := by
  decide +kernel
theorem test_wit_PortAcceptsOneCommandAtATime_internal :
    ∃ t, Move.bsTick ≠ .host ∧ takeMove .bsTick (bursting 0 []) = .next t :=
  ⟨_, by decide, completes (by decide +kernel)⟩
theorem test_wit_PortAcceptsOneCommandAtATime_run : ∃ t, runPacket 0 (staged101 0 []) = .next t :=
  ⟨_, completes (by decide +kernel)⟩
theorem test_wit_NopOnlyAnswersOk :
    (withPacket 0 (waiting [])).bs.wait = true ∧ (withPacket 0 (waiting [])).offered = some .nop := by decide +kernel
theorem test_wit_EveryCommandAnsweredOnce_waits :
    ∃ t, runPacket send1042 (bursting 100 []) = .next t ∧ t.bs.wait = true :=
  ⟨_, completes (by decide +kernel), by decide +kernel⟩
theorem test_wit_EveryCommandAnsweredOnce_ends :
    ∃ t, enabled .bsTimeout (waiting []) = true ∧ takeMove .bsTimeout (waiting []) = .next t :=
  ⟨_, by decide +kernel, completes (by decide +kernel)⟩
theorem test_wit_EveryCommandAnsweredOnce_grants :
    ∃ t, enabled .bsGrant (grantable [.ok]) = true ∧ takeMove .bsGrant (grantable [.ok]) = .next t :=
  ⟨_, by decide +kernel, completes (by decide +kernel)⟩
theorem test_wit_EveryCommandAnsweredOnce_silent : ∃ t, takeMove .ppTick (pressed [.err]) = .next t :=
  ⟨_, completes (by decide +kernel)⟩

theorem test_wit_RdStatusAndPpCountBits :
    (fresh 4 0 [] []).pp.phase = .idle ∧ (pressed []).pp.phase = .preamble ∧ (frameLast 0 []).pp.phase = .data := by
  decide +kernel
theorem test_wit_RdReadsStatusWindow : (0x00#8 ≤ 0x0B#8) ∧ (0x0B#8 ≤ 0x0B#8) ∧ (0x0B#8 < 0x0C#8) ∧ (0x0B#8 < 0xFF#8) := by
  decide

theorem test_wit_SeqPushAppendsSlot :
    (Memory.wf (staged101 0 []).cfg.cap (staged101 0 []).stg.cells = true ∧
      (staged101 0 []).stg.fill < (staged101 0 []).cfg.cap) ∧
    State.stg { staged101 0 [] with stg := { cells := [true, true, true, true], fill := 4 } } =
      { cells := [true, true, true, true], fill := (staged101 0 []).cfg.cap } := by decide +kernel
theorem test_wit_SeqGetReadsStagedSlot :
    (Memory.wf (staged101 0 []).cfg.cap (staged101 0 []).stg.cells = true ∧
      (staged101 0 []).stg.fill ≤ (staged101 0 []).cfg.cap ∧ 2#16 < (staged101 0 []).stg.fill) ∧
    (staged101 0 []).stg.fill ≤ 3#16 ∧ (staged101 0 []).stg.fill ≤ 0xFFFF#16 := by decide +kernel

theorem test_wit_EncNecStagesFrame :
    (Memory.wf (fresh 138 0 [] []).cfg.cap (fresh 138 0 [] []).stg.cells = true ∧
      necLength 0xFF 0xFF ≤ (fresh 138 0 [] []).cfg.cap.toNat) ∧
    necLength 0x00 0x00 ≤ (fresh 138 0 [] []).cfg.cap.toNat := by decide +kernel
theorem test_wit_EncNecLengthLaw_EncNecDecodable :
    ∃ t, Memory.wf (fresh 154 0 [] []).cfg.cap (fresh 154 0 [] []).stg.cells = true ∧
      exec (.encNec 0x00 0x30 0x4F) (fresh 154 0 [] []) = .next t ∧
      t.obs.responses = (fresh 154 0 [] []).obs.responses ++ [⟨.ok, 0⟩] :=
  ⟨_, by decide +kernel, completes (by decide +kernel), by decide +kernel⟩
theorem test_wit_EncNecOverflowKeepsPrefix :
    Memory.wf (fresh 137 0 [] []).cfg.cap (fresh 137 0 [] []).stg.cells = true ∧
      (fresh 137 0 [] []).cfg.cap.toNat < necLength 0xFF 0xFF := by decide +kernel

theorem test_wit_EncBiphPowerStagesFrame :
    Memory.wf (fresh 28 0 [] []).cfg.cap (fresh 28 0 [] []).stg.cells = true ∧ 28 ≤ (fresh 28 0 [] []).cfg.cap.toNat := by
  decide +kernel
theorem test_wit_EncBiphShape :
    ∃ t, Memory.wf (fresh 28 0 [] []).cfg.cap (fresh 28 0 [] []).stg.cells = true ∧
      exec (.encBiph .power) (fresh 28 0 [] []) = .next t ∧
      t.obs.responses = (fresh 28 0 [] []).obs.responses ++ [⟨.ok, 0⟩] :=
  ⟨_, by decide +kernel, completes (by decide +kernel), by decide +kernel⟩
theorem test_wit_EncBiphToggleLaw :
    ∃ s t s' t', Memory.wf s.cfg.cap s.stg.cells = true ∧ Memory.wf s'.cfg.cap s'.stg.cells = true ∧
      exec (.encBiph .power) s = .next t ∧ t.obs.responses = s.obs.responses ++ [⟨.ok, 0⟩] ∧
      s'.toggle = t.toggle ∧ s'.cfg = t.cfg ∧
      exec (.encBiph .power) s' = .next t' ∧ t'.obs.responses = s'.obs.responses ++ [⟨.ok, 0⟩] :=
  ⟨fresh 28 0 [] [], _, after (exec (.encBiph .power) (fresh 28 0 [] [])), _, by decide +kernel, by decide +kernel,
    completes (by decide +kernel), by decide +kernel, by decide +kernel, by decide +kernel,
    completes (by decide +kernel), by decide +kernel⟩
theorem test_wit_EncBiphUnsupportedChangesNothing : Button.up ≠ .power ∧ Button.cancel ≠ .power := by decide
theorem test_wit_EncBiphOverflowKeepsPrefix :
    Memory.wf (fresh 27 0 [] []).cfg.cap (fresh 27 0 [] []).stg.cells = true ∧ (fresh 27 0 [] []).cfg.cap.toNat < 28 := by
  decide +kernel

theorem test_wit_BsSendAcquiresToken :
    (1#32 ≠ 0 ∧ (staged101 0 [.ok]).bs.token = false ∧ (staged101 0 [.ok]).chanAnswer = .ok) ∧
      (staged101 0 [.err]).bs.token = false ∧ (staged101 0 [.err]).chanAnswer = .err := by decide +kernel
theorem test_wit_BsSendBusyOrWaits :
    (1#32 ≠ 0 ∧ (bursting 0 []).bs.token = true ∧ (bursting 0 []).cfg.tokenWait = 0) ∧
      (bursting 100 []).bs.token = true ∧ (bursting 100 []).cfg.tokenWait ≠ 0 := by decide +kernel
theorem test_wit_WaitingRequestGrantedOrTimedOut :
    (waiting []).bs.wait = true ∧
      ((grantable [.ok]).bs.wait = true ∧ (grantable [.ok]).bs.token = false ∧ (grantable [.ok]).chanAnswer = .ok) ∧
      (grantable [.err]).chanAnswer = .err := by decide +kernel
theorem test_wit_WaitEndedOnlyByWaiter_ends :
    ∃ t, (withMove .bsTimeout (waiting [])).bs.wait = true ∧ step (withMove .bsTimeout (waiting [])) = .next t ∧
      (withMove .bsTimeout (waiting [])).nextMove ≠ .reset ∧ t.bs.wait = false :=
  ⟨_, by decide +kernel, completes (by decide +kernel), by decide +kernel, by decide +kernel⟩
theorem test_wit_WaitEndedOnlyByWaiter_goes_on :
    ∃ t, (withMove .bsTick (waiting [])).bs.wait = true ∧ step (withMove .bsTick (waiting [])) = .next t ∧
      (withMove .bsTick (waiting [])).nextMove ≠ .reset ∧ t.bs.wait = true :=
  ⟨_, by decide +kernel, completes (by decide +kernel), by decide +kernel, by decide +kernel⟩
theorem test_wit_BsTickMarksWorkPending :
    ((bursting 0 []).bs.run = true ∧ (bursting 0 []).bs.pend = false) ∧
      (moved .bsTick (bursting 0 [])).bs.run = true ∧ (moved .bsTick (bursting 0 [])).bs.pend = true := by
  decide +kernel
theorem test_wit_BsWorkPutsOutSlot :
    ((moved .bsTick (bursting 0 [.ok])).bs.pend = true ∧
      (moved .bsTick (bursting 0 [.ok])).bs.cursor < (moved .bsTick (bursting 0 [.ok])).bs.len ∧
      (moved .bsTick (bursting 0 [.ok])).bs.act[(moved .bsTick (bursting 0 [.ok])).bs.cursor.toNat]? = some true ∧
      (moved .bsTick (bursting 0 [.ok])).chanAnswer = .ok) ∧
    (moved .bsTick (bursting 0 [.err])).chanAnswer = .err := by decide +kernel
theorem test_wit_BsWorkEndsTransmission :
    ((ending [.ok]).bs.pend = true ∧ (ending [.ok]).bs.len ≤ (ending [.ok]).bs.cursor ∧
      (ending [.ok]).chanAnswer = .ok) ∧
    (ending [.err]).bs.pend = true ∧ (ending [.err]).bs.len ≤ (ending [.err]).bs.cursor ∧
      (ending [.err]).chanAnswer = .err := by decide +kernel
theorem test_wit_TransmissionShape :
    ∃ u, Memory.wf (staged101 0 [.ok]).cfg.cap (staged101 0 [.ok]).stg.cells = true ∧
      (staged101 0 [.ok]).stg.fill ≤ (staged101 0 [.ok]).cfg.cap ∧ 10#32 ≠ 0 ∧
      (staged101 0 [.ok]).bs.token = false ∧ (staged101 0 [.ok]).chanAnswer = .ok ∧
      exec (.bsSend 10 4 2) (staged101 0 [.ok]) = .next u :=
  ⟨_, by decide +kernel, by decide +kernel, by decide, by decide +kernel, by decide +kernel,
    completes (by decide +kernel)⟩
theorem test_wit_TransmissionUndisturbed_command :
    ∃ t, (bursting 0 []).bs.token = true ∧ exec (.seqPush true) (bursting 0 []) = .next t :=
  ⟨_, by decide +kernel, completes (by decide +kernel)⟩
theorem test_wit_TransmissionUndisturbed_release :
    ∃ t, (withMove .bsWork (ending [.ok])).bs.token = true ∧ step (withMove .bsWork (ending [.ok])) = .next t ∧
      t.bs.token = false :=
  ⟨_, by decide +kernel, completes (by decide +kernel), by decide +kernel⟩
theorem test_wit_TokenAcquiredOnlyByAcquisition :
    ∃ t, (withMove .bsGrant (grantable [.ok])).bs.token = false ∧
      step (withMove .bsGrant (grantable [.ok])) = .next t ∧ t.bs.token = true :=
  ⟨_, by decide +kernel, completes (by decide +kernel), by decide +kernel⟩
theorem test_wit_CursorMovesByOne :
    ∃ t, Inv (withMove .bsWork (moved .bsTick (bursting 0 [.ok]))) ∧
      step (withMove .bsWork (moved .bsTick (bursting 0 [.ok]))) = .next t ∧
      (withMove .bsWork (moved .bsTick (bursting 0 [.ok]))).nextMove ≠ .reset ∧
      t.bs.cursor ≠ (withMove .bsWork (moved .bsTick (bursting 0 [.ok]))).bs.cursor :=
  ⟨_, inv_of_holds (by decide +kernel), completes (by decide +kernel), by decide +kernel, by decide +kernel⟩

theorem test_wit_PpPressStartsFrames :
    (Button.up ≠ .power ∧ (frameLast 0 []).pp.phase ≠ .idle) ∧ (pressed []).pp.phase ≠ .idle ∧
      (config 4 0).ppKeyUp = (fresh 4 0 [] []).cfg.ppKeyUp ∧ (fresh 4 0 [] []).pp.phase = .idle := by decide +kernel
theorem test_wit_PpPayloadBits : (config 4 0).ppShift = 5 ∧ 0 < 24 ∧ 4 < 24 ∧ 5 < 24 ∧ 23 < 24 := by decide
theorem test_wit_PpTickPreamble :
    ((pressed [.ok]).pp.run = true ∧ (pressed [.ok]).pp.phase = .preamble ∧
      (pressed [.ok]).pp.pre.toNat + 1 < (pressed [.ok]).cfg.ppPreambleTicks.toNat) ∧
    (preambleEnd [.err]).pp.run = true ∧ (preambleEnd [.err]).pp.phase = .preamble ∧
      (preambleEnd [.err]).cfg.ppPreambleTicks.toNat ≤ (preambleEnd [.err]).pp.pre.toNat + 1 := by decide +kernel
theorem test_wit_PpTickData :
    ((frameLast 0 []).pp.run = true ∧ (frameLast 0 []).pp.phase = .data ∧ (frameLast 0 []).pp.bit < 24 ∧
      (frameLast 0 []).pp.sub = 3 ∧ (frameLast 0 []).pp.bit = 23 ∧ (frameLast 0 []).pp.retries = 0) ∧
    (frameLast 1 []).pp.retries ≠ 0 ∧ (moved .ppTick (preambleEnd [.ok])).pp.phase = .data ∧
      (moved .ppTick (preambleEnd [.ok])).pp.sub ≠ 3 ∧ (moved .ppTick (preambleEnd [.ok])).pp.bit ≠ 23 := by
  decide +kernel
theorem test_wit_FrameCountLaw :
    (pressed []).cfg.ppPreambleTicks ≠ 0 ∧ (pressed []).pp.run = true ∧ (pressed []).pp.phase = .preamble ∧
      (pressed []).pp.pre = 0 ∧ (pressed []).pp.bit = 0 ∧ (pressed []).pp.sub = 0 := by decide +kernel
/-- The same press with a preamble of `ticks` ticks. -/
def pressedWith (ticks : BitVec 16) : State :=
  { pressed [] with cfg := { config 4 0 with ppPreambleTicks := ticks } }
theorem test_wit_FrameRisingEdges :
    ((pressedWith 2).cfg.ppPreambleTicks ≠ 0 ∧ (pressedWith 2).pp.run = true ∧
      (pressedWith 2).pp.phase = .preamble ∧ (pressedWith 2).pp.pre = 0 ∧ (pressedWith 2).pp.bit = 0 ∧
      (pressedWith 2).pp.sub = 0 ∧ 2 ≤ (pressedWith 2).cfg.ppPreambleTicks.toNat) ∧
    ((pressedWith 1).cfg.ppPreambleTicks ≠ 0 ∧ (pressedWith 1).pp.run = true ∧
      (pressedWith 1).pp.phase = .preamble ∧ (pressedWith 1).pp.pre = 0 ∧ (pressedWith 1).pp.bit = 0 ∧
      (pressedWith 1).pp.sub = 0 ∧ (pressedWith 1).cfg.ppPreambleTicks.toNat = 1) := by
  decide +kernel
theorem test_wit_PpPhaseTransitions_start :
    ∃ t, Inv (withPacket 0x40000001 (fresh 4 0 [] [])) ∧ step (withPacket 0x40000001 (fresh 4 0 [] [])) = .next t ∧
      (withPacket 0x40000001 (fresh 4 0 [] [])).nextMove ≠ .reset ∧ t.pp.phase = .preamble ∧
      t.pp.phase ≠ (withPacket 0x40000001 (fresh 4 0 [] [])).pp.phase :=
  ⟨_, inv_of_holds (by decide +kernel), completes (by decide +kernel), by decide +kernel, by decide +kernel,
    by decide +kernel⟩
theorem test_wit_PpPhaseTransitions_data :
    ∃ t, Inv (withMove .ppTick (preambleEnd [.ok])) ∧ step (withMove .ppTick (preambleEnd [.ok])) = .next t ∧
      (withMove .ppTick (preambleEnd [.ok])).nextMove ≠ .reset ∧
      t.pp.phase ≠ (withMove .ppTick (preambleEnd [.ok])).pp.phase :=
  ⟨_, inv_of_holds (by decide +kernel), completes (by decide +kernel), by decide +kernel, by decide +kernel⟩
theorem test_wit_PpPhaseTransitions_repeat :
    ∃ t, Inv (withMove .ppTick (frameLast 1 [.ok])) ∧ step (withMove .ppTick (frameLast 1 [.ok])) = .next t ∧
      (withMove .ppTick (frameLast 1 [.ok])).nextMove ≠ .reset ∧ t.pp.phase = .preamble :=
  ⟨_, inv_of_holds (by decide +kernel), completes (by decide +kernel), by decide +kernel, by decide +kernel⟩
theorem test_wit_PpPhaseTransitions_stop :
    ∃ t, Inv (withMove .ppTick (frameLast 0 [.ok])) ∧ step (withMove .ppTick (frameLast 0 [.ok])) = .next t ∧
      (withMove .ppTick (frameLast 0 [.ok])).nextMove ≠ .reset ∧ t.pp.phase = .idle :=
  ⟨_, inv_of_holds (by decide +kernel), completes (by decide +kernel), by decide +kernel, by decide +kernel⟩
theorem test_wit_PulsePatternIndependent :
    (∃ t, exec (.ppPress .up) (fresh 4 0 [] []) = .next t) ∧
      (∃ t, (∀ button, Instr.nop ≠ .ppPress button) ∧ exec .nop (fresh 4 0 [] []) = .next t) ∧
      ∃ t, takeMove .bsTick (bursting 0 []) = .next t :=
  ⟨⟨_, completes (by decide +kernel)⟩, ⟨_, fun _ => by simp, completes (by decide +kernel)⟩,
    ⟨_, completes (by decide +kernel)⟩⟩
/-- Both timers at work: a pending slot and a running frame. -/
def bothAtWork : State :=
  { moved .bsTick (bursting 0 [.ok]) with
    pp := (pressed []).pp
    env := { (moved .bsTick (bursting 0 [.ok])).env with pinAnswers := [.ok] } }
theorem test_wit_SequencerAndPulsePatternCommute :
    ∃ u v, takeMove .bsWork bothAtWork = .next u ∧ takeMove .ppTick bothAtWork = .next v ∧
      enabled .bsWork bothAtWork = true ∧ enabled .ppTick bothAtWork = true :=
  ⟨_, _, completes (by decide +kernel), completes (by decide +kernel), by decide +kernel, by decide +kernel⟩

theorem test_wit_ResetValues : ∃ t, takeMove .reset (waiting []) = .next t := ⟨_, completes (by decide +kernel)⟩
theorem test_wit_InvKeptByEveryStep_NoStepStops_ConfigurationNeverChanges :
    ∃ t, Inv (withMove .bsTick (waiting [])) ∧ step (withMove .bsTick (waiting [])) = .next t :=
  ⟨_, inv_of_holds (by decide +kernel), completes (by decide +kernel)⟩
theorem test_wit_ErrlogRecordsInFlightFaults_OnlyOwnersOperateDevices :
    ∃ t, step (withMove .bsWork (moved .bsTick (bursting 0 [.err]))) = .next t ∧
      (withMove .bsWork (moved .bsTick (bursting 0 [.err]))).nextMove ≠ .reset ∧
      t.obs.chanTrace ≠ (withMove .bsWork (moved .bsTick (bursting 0 [.err]))).obs.chanTrace :=
  ⟨_, completes (by decide +kernel), by decide +kernel, by decide +kernel⟩
theorem test_wit_OnlyOwnersOperateDevices_pin :
    ∃ t, step (withMove .ppTick (pressed [.ok])) = .next t ∧ (withMove .ppTick (pressed [.ok])).nextMove ≠ .reset ∧
      t.pin ≠ (withMove .ppTick (pressed [.ok])).pin :=
  ⟨_, completes (by decide +kernel), by decide +kernel, by decide +kernel⟩
theorem test_wit_OnlyEncodersWriteStaging :
    ∃ t, step (withPacket 0x21000000 (fresh 28 0 [] [])) = .next t ∧
      (withPacket 0x21000000 (fresh 28 0 [] [])).nextMove ≠ .reset ∧
      t.stg ≠ (withPacket 0x21000000 (fresh 28 0 [] [])).stg ∧
      t.toggle ≠ (withPacket 0x21000000 (fresh 28 0 [] [])).toggle :=
  ⟨_, completes (by decide +kernel), by decide +kernel, by decide +kernel, by decide +kernel⟩
theorem test_wit_OnlyEncodersWriteStaging_active :
    ∃ t, step (withPacket send1042 (staged101 0 [.ok])) = .next t ∧
      (withPacket send1042 (staged101 0 [.ok])).nextMove ≠ .reset ∧
      t.bs.act ≠ (withPacket send1042 (staged101 0 [.ok])).bs.act :=
  ⟨_, completes (by decide +kernel), by decide +kernel, by decide +kernel⟩
theorem test_wit_QuiescentIffNothingEnabled :
    (Inv (fresh 4 0 [] []) ∧ (fresh 4 0 [] []).quiescent = true) ∧ Inv (waiting []) ∧ (waiting []).quiescent = false :=
  ⟨⟨inv_of_holds (by decide +kernel), by decide +kernel⟩, inv_of_holds (by decide +kernel), by decide +kernel⟩

theorem test_wit_RejectedPressTouchesNoOutput :
    (∃ t, pressButton .display .up 3 (fresh 4 0 [] []) = .next ⟨3, t, .done .unsupported⟩) ∧
      (fresh 4 0 [] []).bs.wait = false ∧ necTriple (fresh 4 0 [] []).cfg.necButtons .up = none ∧
      ∃ t, pressButton .projector .power 3 (fresh 4 0 [] []) = .next ⟨3, t, .done .bufferOverflow⟩ :=
  ⟨press_of (by decide +kernel), by decide +kernel, by decide +kernel, press_of (by decide +kernel)⟩
theorem test_wit_RejectedPressTouchesNoOutput_busy :
    (Memory.wf (displaying 0 [] []).cfg.cap (displaying 0 [] []).stg.cells = true ∧
      (displaying 0 [] []).cfg.wf = true ∧ 28 ≤ (displaying 0 [] []).cfg.cap.toNat ∧
      (displaying 0 [] []).bs.wait = false ∧ (displaying 0 [] []).bs.token = true ∧
      (displaying 0 [] []).cfg.tokenWait = 0) ∧
    (pressed []).bs.wait = false ∧ Button.up ≠ .power ∧ (pressed []).pp.phase ≠ .idle := by decide +kernel
theorem test_wit_RejectedPressTouchesNoOutput_projectorBusy :
    Memory.wf (ran send1042 (fresh 154 0 [.ok] [])).cfg.cap (ran send1042 (fresh 154 0 [.ok] [])).stg.cells = true ∧
      (ran send1042 (fresh 154 0 [.ok] [])).cfg.wf = true ∧
      necTriple (ran send1042 (fresh 154 0 [.ok] [])).cfg.necButtons .power = some ⟨0x00, 0x30, 0x4F⟩ ∧
      necLength 0x00 0x30 ≤ (ran send1042 (fresh 154 0 [.ok] [])).cfg.cap.toNat ∧
      (ran send1042 (fresh 154 0 [.ok] [])).bs.wait = false ∧
      (ran send1042 (fresh 154 0 [.ok] [])).bs.token = true ∧
      (ran send1042 (fresh 154 0 [.ok] [])).cfg.tokenWait = 0 := by decide +kernel

/-- A burst of the empty sequence (V23): acquired, ticked, ended, and then nothing more. -/
def emptyBurst : Nat → State
  | 0 => ran send1042 (fresh 4 0 [.ok, .ok] [])
  | 1 => after (takeMove .bsTick (ran send1042 (fresh 4 0 [.ok, .ok] [])))
  | _ + 2 => after (takeMove .bsWork (after (takeMove .bsTick (ran send1042 (fresh 4 0 [.ok, .ok] [])))))

/-- One tick, then the worker for ever. -/
def emptyBurstMoves : Nat → Move
  | 0 => .bsTick
  | _ + 1 => .bsWork

theorem emptyBurst_idle (n : Nat) : ∀ m ∈ internalMoves, enabled m (emptyBurst (n + 2)) = false := by
  simp only [emptyBurst]
  decide +kernel

theorem emptyBurst_fair {group : List Move} (h : ∀ m ∈ group, m ∈ internalMoves) :
    WeaklyFair group emptyBurstMoves emptyBurst := by
  intro n hn
  obtain ⟨m, hm, he⟩ := hn (n + 2) (by omega)
  rw [emptyBurst_idle n m (h m hm)] at he
  exact absurd he (by decide)

theorem test_wit_FairRunsComplete :
    FairRun emptyBurstMoves emptyBurst ∧ Inv (emptyBurst 0) ∧ (emptyBurst 0).bs.token = true := by
  refine ⟨⟨fun n => ?_, emptyBurst_fair (by decide), emptyBurst_fair (by decide), emptyBurst_fair (by decide),
    emptyBurst_fair (by decide)⟩, inv_of_holds (by decide +kernel), by decide +kernel⟩
  match n with
  | 0 => exact completes (by decide +kernel)
  | 1 => exact completes (by decide +kernel)
  | n + 2 =>
    have h := emptyBurst_idle n .bsWork (by decide)
    simp only [emptyBurstMoves, takeMove, h]
    rfl
theorem test_wit_FairRunsComplete_waits : (waiting []).bs.wait = true ∧ (pressed []).pp.run = true := by
  decide +kernel
theorem test_wit_PressResultIsItsLastResponse_free :
    (Memory.wf (fresh 154 0 [.ok] []).cfg.cap (fresh 154 0 [.ok] []).stg.cells = true ∧
      (fresh 154 0 [.ok] []).cfg.wf = true ∧ 28 ≤ (fresh 154 0 [.ok] []).cfg.cap.toNat ∧
      (fresh 154 0 [.ok] []).bs.wait = false ∧ (fresh 154 0 [.ok] []).bs.token = false ∧
      (fresh 154 0 [.ok] []).chanAnswer = .ok) ∧
    (necTriple (fresh 154 0 [.ok] []).cfg.necButtons .power = some ⟨0x00, 0x30, 0x4F⟩ ∧
      necLength 0x00 0x30 ≤ (fresh 154 0 [.ok] []).cfg.cap.toNat) ∧
    keyCode (fresh 154 0 [.ok] []).cfg .up = some 0x01 ∧ (fresh 154 0 [.ok] []).pp.phase = .idle := by decide +kernel
theorem test_wit_PressResultIsItsLastResponse_refused :
    (Memory.wf (fresh 154 0 [.err] []).cfg.cap (fresh 154 0 [.err] []).stg.cells = true ∧
      (fresh 154 0 [.err] []).cfg.wf = true ∧ 28 ≤ (fresh 154 0 [.err] []).cfg.cap.toNat ∧
      (fresh 154 0 [.err] []).bs.wait = false ∧ (fresh 154 0 [.err] []).bs.token = false ∧
      (fresh 154 0 [.err] []).chanAnswer = .err) ∧
    necTriple (fresh 154 0 [.err] []).cfg.necButtons .power = some ⟨0x00, 0x30, 0x4F⟩ ∧
      necLength 0x00 0x30 ≤ (fresh 154 0 [.err] []).cfg.cap.toNat := by decide +kernel
theorem test_wit_PressResultIsItsLastResponse_held :
    Memory.wf (holding 154 [] []).cfg.cap (holding 154 [] []).stg.cells = true ∧ (holding 154 [] []).cfg.wf = true ∧ 28 ≤ (holding 154 [] []).cfg.cap.toNat ∧
      (holding 154 [] []).bs.wait = false ∧ (holding 154 [] []).bs.token = true ∧ (holding 154 [] []).cfg.tokenWait ≠ 0 ∧
      necTriple (holding 154 [] []).cfg.necButtons .power = some ⟨0x00, 0x30, 0x4F⟩ ∧
      necLength 0x00 0x30 ≤ (holding 154 [] []).cfg.cap.toNat := by decide +kernel
theorem test_wit_PressResultIsItsLastResponse_waits :
    (∃ t, untilAnswered 3 (withMove .bsTimeout (waiting [])) = .next (2, t) ∧ t.bs.wait = false) ∧
      (∃ t, untilAnswered 1 (withMove .bsTick (waiting [])) = .next (0, t) ∧ t.bs.wait = true) ∧
      necTriple (waiting []).cfg.necButtons .power ≠ none ∧
      (withMove .bsTimeout (waiting [])).bs.wait = true ∧ (withMove .bsTick (waiting [])).bs.wait = true :=
  ⟨wait_of (by decide +kernel), wait_of (by decide +kernel), by decide +kernel, by decide +kernel, by decide +kernel⟩
theorem test_wit_PressResultIsItsLastResponse_next :
    (withMove .bsTimeout (waiting [])).nextMove = .bsTimeout ∧
      ((withMove .bsGrant (grantable [.ok])).bs.wait = true ∧
        (withMove .bsGrant (grantable [.ok])).nextMove = .bsGrant ∧
        (withMove .bsGrant (grantable [.ok])).bs.token = false ∧
        (withMove .bsGrant (grantable [.ok])).chanAnswer = .ok) ∧
      (withMove .bsGrant (grantable [.err])).chanAnswer = .err ∧
      (withMove .reset (waiting [])).bs.wait = true ∧ (withMove .reset (waiting [])).nextMove = .reset := by
  decide +kernel

/-- A burst accepted at time 1000, its first tick (number 0) just fired. -/
def clockFirstWork : Clock := ⟨1000, 1000, 1, 0, 0, 0, 0⟩
/-- The same burst at its fourth tick (number 3 = `bs_len`), 30 units later. -/
def clockEnd : Clock := ⟨1030, 1000, 4, 0, 0, 0, 0⟩
/-- A press accepted at time 0: 599 ticks of 500 units have happened, the last at 299000. -/
def clockLastTick : Clock := ⟨299000, 0, 0, 0, 0, 0, 599⟩

theorem test_wit_TimedStepKeepsClock :
    ∃ x, Inv (moved .bsTick (bursting 0 [.ok])) ∧ TimedInv clockFirstWork (moved .bsTick (bursting 0 [.ok])) ∧
      timedStep clockFirstWork (moved .bsTick (bursting 0 [.ok])) 1005 .bsWork = some x :=
  ⟨_, inv_of_holds (by decide +kernel), timed_of_holds (by decide +kernel), timed_completes (by decide +kernel)⟩
theorem test_wit_WorkFallsIntoItsWindow :
    ∃ c' s', Inv (ending [.ok]) ∧ TimedInv clockEnd (ending [.ok]) ∧
      timedStep clockEnd (ending [.ok]) 1039 .bsWork = some (c', s') ∧ s'.bs.token = false :=
  ⟨_, _, inv_of_holds (by decide +kernel), timed_of_holds (by decide +kernel), timed_completes (by decide +kernel),
    by decide +kernel⟩
theorem test_wit_TimedRunsNeverOverrun :
    ∃ c' s', timedStep clockFirstWork { moved .bsTick (bursting 0 [.ok]) with errlog := ⟨false, false, true⟩ } 1005
        .bsWork = some (c', s') ∧ s'.errlog.bsOverrun = true :=
  ⟨_, _, timed_completes (by decide +kernel), by decide +kernel⟩
theorem test_wit_LastPpTickTime :
    ∃ c' s', Inv (frameLast 0 [.ok]) ∧ TimedInv clockLastTick (frameLast 0 [.ok]) ∧
      timedStep clockLastTick (frameLast 0 [.ok]) 299500 .ppTick = some (c', s') ∧ s'.pp.run = false :=
  ⟨_, _, inv_of_holds (by decide +kernel), timed_of_holds (by decide +kernel), timed_completes (by decide +kernel),
    by decide +kernel⟩

end Sys2Proof.Tests
end

section
/-! PROOFS. The command port (R8, R87): which step the schedule names, and what the HOST step does with the
oldest offered packet. -/

namespace Sys2Proof.Machine

/-! ### The chosen step -/

theorem State.nextMove_of_sched {s : State} {m : Move} {ms : List Move} (h : s.env.sched = m :: ms) :
    s.nextMove = m := by
  simp only [State.nextMove, h]

theorem State.afterMove_of_sched {s : State} {m : Move} {ms : List Move} (h : s.env.sched = m :: ms) :
    s.afterMove = { s with env := { s.env with sched := ms } } := by
  simp only [State.afterMove, h]

theorem step_of_sched {s : State} {m : Move} {ms : List Move} (h : s.env.sched = m :: ms) :
    step s = takeMove m { s with env := { s.env with sched := ms } } := by
  rw [step, State.nextMove_of_sched h, State.afterMove_of_sched h]

theorem takeMove_of_enabled {m : Move} {s : State} (h : enabled m s = true) : takeMove m s = perform m s :=
  if_pos h

/-! ### The HOST step -/

theorem enabled_host_iff (s : State) : enabled .host s = true ↔ s.bs.wait = false ∧ s.env.port ≠ [] := by
  simp [enabled]

theorem hostStep_of_port {s : State} {p : Packet} {rest : List Packet} (h : s.env.port = p :: rest) :
    hostStep s = runPacket p (s.takePacket p rest) := by
  simp only [hostStep, h]

theorem takeMove_host_of_port {s : State} {p : Packet} {rest : List Packet} (hwait : s.bs.wait = false)
    (hport : s.env.port = p :: rest) : takeMove .host s = runPacket p (s.takePacket p rest) := by
  have hen : enabled .host s = true := (enabled_host_iff s).2 ⟨hwait, by simp [hport]⟩
  rw [takeMove_of_enabled hen, perform, hostStep_of_port hport]

theorem runPacket_of_command {p : Packet} {i : Instr} (h : decode p = .command i) (s : State) :
    runPacket p s = exec i s := by
  simp only [runPacket, h]

/-- Settles O6: the schedule names the HOST step, the port accepts, and the accepted packet's command runs. -/
theorem stepRunsDecodedCommand : Obligations.StepRunsDecodedCommand := by
  intro s p rest ms i hwait hsched hport hdecode
  let s' : State := { s with env := { s.env with sched := ms } }
  calc step s
    _ = takeMove .host s' := step_of_sched hsched
    _ = runPacket p (s'.takePacket p rest) := takeMove_host_of_port hwait hport
    _ = exec i (s'.takePacket p rest) := runPacket_of_command hdecode _

end Sys2Proof.Machine
end

section
/-! PROOFS. The steps field by field: what each command and each agent's step leaves of the state, and which
steps reach the devices and the cursor (R37, R38, R43, R44). -/

namespace Sys2Proof.Machine

/-! ### The answers of the devices -/

@[simp] theorem State.clearPend_chanAnswer (s : State) : s.clearPend.chanAnswer = s.chanAnswer := rfl
@[simp] theorem State.endWait_chanAnswer (s : State) : s.endWait.chanAnswer = s.chanAnswer := rfl
@[simp] theorem State.takePacket_chanAnswer (p : Packet) (rest : List Packet) (s : State) :
    (s.takePacket p rest).chanAnswer = s.chanAnswer := rfl

/-! ### Steps as one update -/

/-- The acquisition step, field by field (R122). -/
theorem acquire_eq (sp cp pw : Duration) (s : State) :
    acquire sp cp pw s =
      { s with
        bs := if s.chanAnswer = .ok then s.acquired sp pw else s.bs
        ch := if s.chanAnswer = .ok then { period := cp, pulse := 0 } else s.ch
        obs :=
          { s.obs with
            chanTrace := s.obs.chanTrace ++ [(.cfg cp, s.chanAnswer)]
            responses := s.obs.responses ++ [⟨if s.chanAnswer = .ok then .ok else .hwError, 0⟩] }
        env := s.env.afterChan } := by
  rcases acquire_cases sp cp pw s with ⟨ha, he⟩ | ⟨ha, he⟩ <;> simp [he, ha]

/-- BS_TICK, field by field (R126): work is pending afterwards; a tick over pending work is logged. -/
theorem bsTick_eq (s : State) :
    bsTick s =
      { s with
        bs := { s.bs with pend := true }
        errlog := { s.errlog with bsOverrun := s.errlog.bsOverrun || s.bs.pend } } := by
  obtain ⟨cfg, stg, ⟨act, token, cursor, len, pulse, slotPeriod, run, pend, _⟩, _⟩ := s
  cases pend <;> simp [bsTick, State.logBsOverrun]

/-- BS_WORK issues one channel operation, whose answer the log takes (R128 to R130). -/
theorem bsWork_frame {s t : State} (h : bsWork s = .next t) :
    ∃ op, t =
      { s with
        bs := t.bs
        ch := t.ch
        errlog := { s.errlog with bsTickErr := s.errlog.bsTickErr || decide (s.chanAnswer = .err) }
        obs := { s.obs with chanTrace := s.obs.chanTrace ++ [(op, s.chanAnswer)] }
        env := s.env.afterChan } := by
  rcases bsWork_cases h with ⟨v, -, -, rfl⟩ | ⟨-, rfl⟩
  · exact ⟨.pulse (slotPulse s.bs.pulse v), by rw [slotStep_eq]; rfl⟩
  · exact ⟨.pulse 0, by rw [endStep_eq]; rfl⟩

/-- PP_TICK issues one pin operation, whose answer the log takes (R174, R180). -/
theorem ppTick_frame {s t : State} (h : ppTick s = .next t) :
    ∃ level, t =
      { s with
        pp := t.pp
        pin := t.pin
        errlog := { s.errlog with ppTickErr := s.errlog.ppTickErr || decide (s.pinAnswer = .err) }
        obs := { s.obs with pinTrace := s.obs.pinTrace ++ [(level, s.pinAnswer)] }
        env := s.env.afterPin } := by
  rcases ppTick_cases h with ⟨-, rfl⟩ | ⟨-, -, rfl⟩ <;> exact ⟨_, by rw [ppOutput_eq]⟩

/-! ### Commands -/

/-- No command touches the configuration, the log or the pin (R43, R44, R180). -/
theorem exec_frame {i : Instr} {s t : State} (h : exec i s = .next t) :
    t.cfg = s.cfg ∧ t.errlog = s.errlog ∧ t.pin = s.pin ∧ t.obs.pinTrace = s.obs.pinTrace := by
  rcases exec_cases h with ⟨_, _, rfl, -⟩ | ⟨_, _, -, -, rfl, -⟩ | ⟨_, _, -, -, rfl, -⟩ |
    ⟨_, _, _, -, -, -, rfl⟩ | ⟨_, _, _, -, -, -, -, rfl⟩ | ⟨_, _, -, -, -, rfl⟩ <;> simp [acquire_eq]

/-- A command that reaches the channel or the cursor is a BS.SEND that acquires the free token (R121). -/
theorem exec_channel {i : Instr} {s t : State} (h : exec i s = .next t) :
    (t.ch = s.ch ∧ t.obs.chanTrace = s.obs.chanTrace ∧ t.bs.cursor = s.bs.cursor) ∨
    ∃ sp cp pw, i = .bsSend sp cp pw ∧ s.bs.token = false ∧ t = acquire sp cp pw s := by
  rcases exec_cases h with ⟨_, _, rfl, -⟩ | ⟨_, _, -, -, rfl, -⟩ | ⟨_, _, -, -, rfl, -⟩ |
    ⟨sp, cp, pw, hi, -, htoken, ht⟩ | ⟨_, _, _, -, -, -, -, rfl⟩ | ⟨_, _, -, -, -, rfl⟩
  case inr.inr.inr.inl => exact .inr ⟨sp, cp, pw, hi, htoken, ht⟩
  all_goals exact .inl (by simp)

/-- The HOST step, whatever it accepts, touches neither the configuration nor the log nor the pin. -/
theorem hostStep_frame {s t : State} (h : hostStep s = .next t) :
    t.cfg = s.cfg ∧ t.errlog = s.errlog ∧ t.pin = s.pin ∧ t.obs.pinTrace = s.obs.pinTrace := by
  rcases hostStep_cases h with ⟨-, rfl⟩ | ⟨p, rest, _, -, -, rfl⟩ | ⟨p, rest, i, -, -, hexec⟩
  · simp
  · simp
  · simpa using exec_frame hexec

/-- A HOST step that reaches the channel or the cursor has accepted a BS.SEND that acquires. -/
theorem hostStep_channel {s t : State} (h : hostStep s = .next t) :
    (t.ch = s.ch ∧ t.obs.chanTrace = s.obs.chanTrace ∧ t.bs.cursor = s.bs.cursor) ∨
    ∃ sp cp pw p rest, s.offered = some (.bsSend sp cp pw) ∧ s.bs.token = false ∧
      t = acquire sp cp pw (s.takePacket p rest) := by
  rcases hostStep_cases h with ⟨-, rfl⟩ | ⟨p, rest, _, -, -, rfl⟩ | ⟨p, rest, i, hport, hdecode, hexec⟩
  · simp
  · simp
  · rcases exec_channel hexec with hsame | ⟨sp, cp, pw, rfl, htoken, ht⟩
    · exact .inl (by simpa using hsame)
    · exact .inr ⟨sp, cp, pw, p, rest, by simp [State.offered, hport, hdecode], htoken, ht⟩

/-! ### Chosen steps -/

/-- Every step that reaches the channel or the cursor, RESET apart: BS_WORK over pending work, a grant, or a
BS.SEND that acquires at once (R25, R37, R72). -/
theorem takeMove_channel {m : Move} {s t : State} (h : takeMove m s = .next t) (hm : m ≠ .reset) :
    (t.ch = s.ch ∧ t.obs.chanTrace = s.obs.chanTrace ∧ t.bs.cursor = s.bs.cursor) ∨
    (m = .bsWork ∧ s.bs.pend = true ∧ bsWork s = .next t) ∨
    (m = .bsGrant ∧ s.bs.wait = true ∧ s.bs.token = false ∧ t = bsGrant s) ∨
    (m = .host ∧ s.bs.wait = false ∧ ∃ sp cp pw p rest, s.offered = some (.bsSend sp cp pw) ∧
      s.bs.token = false ∧ t = acquire sp cp pw (s.takePacket p rest)) := by
  rcases takeMove_cases h with ⟨-, rfl⟩ | ⟨hen, hdo⟩
  · exact .inl ⟨rfl, rfl, rfl⟩
  cases m with
  | host =>
    rcases hostStep_channel hdo with hsame | hacq
    · exact .inl hsame
    · exact .inr (.inr (.inr ⟨rfl, ((enabled_host_iff s).1 hen).1, hacq⟩))
  | bsTick =>
    obtain rfl := Host.Outcome.next.inj hdo
    exact .inl (by simp [bsTick_eq])
  | bsWork => exact .inr (.inl ⟨rfl, hen, hdo⟩)
  | bsGrant =>
    obtain ⟨hwait, htoken⟩ : s.bs.wait = true ∧ s.bs.token = false := by simpa [enabled] using hen
    exact .inr (.inr (.inl ⟨rfl, hwait, htoken, (Host.Outcome.next.inj hdo).symm⟩))
  | bsTimeout =>
    obtain rfl := Host.Outcome.next.inj hdo
    exact .inl (by simp [bsTimeout])
  | ppTick =>
    obtain ⟨_, ht⟩ := ppTick_frame hdo
    exact .inl (by rw [ht]; exact ⟨rfl, rfl, rfl⟩)
  | reset => exact absurd rfl hm

/-- Every step that reaches the pin, RESET apart, is a PP_TICK of the running timer (R38, R180). -/
theorem takeMove_pin {m : Move} {s t : State} (h : takeMove m s = .next t) (hm : m ≠ .reset) :
    (t.pin = s.pin ∧ t.obs.pinTrace = s.obs.pinTrace) ∨
    (m = .ppTick ∧ s.pp.run = true ∧ ppTick s = .next t) := by
  rcases takeMove_cases h with ⟨-, rfl⟩ | ⟨hen, hdo⟩
  · exact .inl ⟨rfl, rfl⟩
  cases m with
  | host => exact .inl (hostStep_frame hdo).2.2
  | bsTick =>
    obtain rfl := Host.Outcome.next.inj hdo
    exact .inl (by simp [bsTick_eq])
  | bsWork =>
    obtain ⟨_, ht⟩ := bsWork_frame hdo
    exact .inl (by rw [ht]; exact ⟨rfl, rfl⟩)
  | bsGrant =>
    obtain rfl := Host.Outcome.next.inj hdo
    exact .inl (by simp [bsGrant, acquire_eq])
  | bsTimeout =>
    obtain rfl := Host.Outcome.next.inj hdo
    exact .inl (by simp [bsTimeout])
  | ppTick => exact .inr ⟨rfl, hen, hdo⟩
  | reset => exact absurd rfl hm

/-- No step changes the configuration (R44). -/
theorem takeMove_cfg {m : Move} {s t : State} (h : takeMove m s = .next t) : t.cfg = s.cfg := by
  rcases takeMove_cases h with ⟨-, rfl⟩ | ⟨-, hdo⟩
  · rfl
  cases m with
  | host => exact (hostStep_frame hdo).1
  | bsTick =>
    obtain rfl := Host.Outcome.next.inj hdo
    rw [bsTick_eq]
  | bsWork =>
    obtain ⟨_, ht⟩ := bsWork_frame hdo
    rw [ht]
  | bsGrant =>
    obtain rfl := Host.Outcome.next.inj hdo
    simp [bsGrant, acquire_eq]
  | bsTimeout =>
    obtain rfl := Host.Outcome.next.inj hdo
    simp [bsTimeout]
  | ppTick =>
    obtain ⟨_, ht⟩ := ppTick_frame hdo
    rw [ht]
  | reset =>
    obtain rfl := Host.Outcome.next.inj hdo
    rfl

/-- What each step other than RESET logs, and that it clears nothing (R43). -/
theorem takeMove_errlog {m : Move} {s t : State} (h : takeMove m s = .next t) (hm : m ≠ .reset) :
    t.errlog =
      { bsTickErr :=
          s.errlog.bsTickErr || (decide (m = .bsWork) && s.bs.pend && decide (s.chanAnswer = .err))
        ppTickErr :=
          s.errlog.ppTickErr || (decide (m = .ppTick) && s.pp.run && decide (s.pinAnswer = .err))
        bsOverrun := s.errlog.bsOverrun || (decide (m = .bsTick) && s.bs.run && s.bs.pend) } := by
  rcases takeMove_cases h with ⟨hdis, rfl⟩ | ⟨hen, hdo⟩
  · cases m <;> simp_all [enabled]
  cases m with
  | host => simp [(hostStep_frame hdo).2.1]
  | bsTick =>
    obtain rfl := Host.Outcome.next.inj hdo
    have hrun : s.bs.run = true := hen
    simp [bsTick_eq, hrun]
  | bsWork =>
    obtain ⟨_, ht⟩ := bsWork_frame hdo
    have hpend : s.bs.pend = true := hen
    rw [ht]
    simp [hpend]
  | bsGrant =>
    obtain rfl := Host.Outcome.next.inj hdo
    simp [bsGrant, acquire_eq]
  | bsTimeout =>
    obtain rfl := Host.Outcome.next.inj hdo
    simp [bsTimeout]
  | ppTick =>
    obtain ⟨_, ht⟩ := ppTick_frame hdo
    have hrun : s.pp.run = true := hen
    rw [ht]
    simp [hrun]
  | reset => exact absurd rfl hm

end Sys2Proof.Machine
end

section
/-! PROOFS. What RESET leaves (R46, R241), and that every step keeps the invariants of R39. Where a command is
about to be answered, the invariants are stated of the state with its response already given. -/

namespace Sys2Proof

/-! ### The configuration (R245) -/

/-- The block that `State.reset` describes meets the constraints of R245, whatever the free constants. -/
theorem Config.atReset_wf : Config.atReset.wf = true := by
  have hnec := Config.freeNecBaseUnitLess4.isLt
  have hbiph := Config.freeBiphSlotPeriodLess1.isLt
  have hbase := Config.freePpBaseUnitLess1.isLt
  have hticks := Config.freePpPreambleTicksLess1.isLt
  simp [Config.wf, Config.atReset, ← BitVec.toNat_inj]
  omega

theorem Config.ppPreambleTicks_pos {cfg : Config} (h : cfg.wf = true) : 0 < cfg.ppPreambleTicks.toNat := by
  simp [Config.wf, ← BitVec.toNat_inj] at h
  omega

end Sys2Proof

namespace Sys2Proof.Machine

/-! ### Reset -/

/-- The invariants hold at reset of every block that meets R245. -/
theorem Inv.resetWith {cfg : Config} (h : cfg.wf = true) : Inv (State.resetWith cfg) where
  cfgWf := h
  stgWf := Memory.wf_replicate _
  actWf := Memory.wf_replicate _
  fillLe := by simp [State.resetWith, BitVec.le_def]
  lenLe := by simp [State.resetWith, BitVec.le_def]
  cursorLe := by simp [State.resetWith]
  tokenRun := rfl
  pendToken := by simp [State.resetWith]
  periodNe := by simp [State.resetWith]
  waitLatched := by simp [State.resetWith]
  noWait := by simp [State.resetWith]
  answered := rfl
  ppRun := by simp [State.resetWith]
  ppPreamble := by simp [State.resetWith]
  ppData := by simp [State.resetWith]
  ppIdle := by simp [State.resetWith]
  ppRetries := by simp [State.resetWith]
  chPulse := by simp [State.resetWith]

/-! ### Updates that keep the invariants -/

section
variable {s : State} (h : Inv s)
include h

theorem Inv.withEnv (env : Environment) : Inv { s with env := env } := { h with }

theorem Inv.withToggle (toggle : Bool) : Inv { s with toggle := toggle } := { h with }

theorem Inv.withStaging {stg : Staging} (hlen : stg.cells.length = s.stg.cells.length)
    (hfill : s.stg.fill ≤ s.cfg.cap → stg.fill ≤ s.cfg.cap) : Inv { s with stg := stg } :=
  { h with
    stgWf := Memory.wf_iff.2 (hlen.trans (Memory.wf_iff.1 h.stgWf))
    fillLe := hfill h.fillLe }

theorem Inv.afterMove : Inv s.afterMove := by
  have heq : s.afterMove = { s with env := s.afterMove.env } := by
    unfold State.afterMove
    split <;> rfl
  exact heq ▸ h.withEnv _

/-- An accepted packet that is answered at once (R86, R87). -/
theorem Inv.answer (hwait : s.bs.wait = false) (p : Packet) (rest : List Packet) (code : RespCode) (data : Word) :
    Inv ((s.takePacket p rest).plusResponse code data) :=
  { h with
    waitLatched := fun hw => absurd (hwait.symm.trans hw) Bool.false_ne_true
    answered := by
      have hcount := h.answered
      simp only [State.plusResponse_obs, State.plusResponse_bs, State.takePacket_obs, State.takePacket_bs,
        List.length_append, List.length_cons, List.length_nil]
      omega }

/-- An accepted BS.SEND that waits with its operands latched (R31, R121). -/
theorem Inv.startWait (hwait : s.bs.wait = false) {p : Packet} {sp cp pw : Duration}
    (hdecode : decode p = .command (.bsSend sp cp pw)) (hsp : sp ≠ 0) (hbound : s.cfg.tokenWait ≠ 0)
    (rest : List Packet) : Inv ((s.takePacket p rest).startWait sp cp pw) :=
  { h with
    waitLatched := fun _ => ⟨hsp, hbound, p, by simp, hdecode⟩
    noWait := by simp
    answered := by
      have hcount := h.answered
      simp only [hwait] at hcount
      simpa using hcount }

/-- BS_TICK marks work pending while the timer runs, and then the token is held (R126, R39 (3), (4)). -/
theorem Inv.bsTick (hrun : s.bs.run = true) : Inv (bsTick s) := by
  rw [bsTick_eq]
  exact { h with pendToken := fun _ => h.tokenRun.trans hrun }

/-- The wait ends with an answer (R125). -/
theorem Inv.bsTimeout (hwait : s.bs.wait = true) : Inv (bsTimeout s) :=
  { h with
    waitLatched := fun hw => absurd hw Bool.false_ne_true
    noWait := fun _ => ⟨rfl, rfl, rfl⟩
    answered := by
      have hcount := h.answered
      simp only [hwait] at hcount
      simpa [Machine.bsTimeout] using hcount }

/-- RESET gives every variable its reset value (R241). -/
theorem Inv.resetStep : Inv (resetStep s) := (Inv.resetWith h.cfgWf).withEnv s.env

end

/-- The acquisition step answers its command and sets up the whole transmission, or answers it and leaves the
sequencer (R122). -/
theorem Inv.acquire {s : State} {code : RespCode} {data : Word} (h : Inv (s.plusResponse code data))
    {sp : Duration} (hsp : sp ≠ 0) (cp pw : Duration) : Inv (acquire sp cp pw s) := by
  rcases acquire_cases sp cp pw s with ⟨-, he⟩ | ⟨-, he⟩ <;> rw [he]
  · exact
      { h with
        actWf := h.stgWf
        lenLe := h.fillLe
        cursorLe := by simp [State.acquired, BitVec.le_def]
        tokenRun := rfl
        pendToken := fun _ => rfl
        periodNe := fun _ => hsp
        answered := by simpa [State.acquired] using h.answered
        chPulse := fun _ => .inl rfl }
  · exact { h with answered := by simpa using h.answered }

/-- BS_GRANT is the acquisition step for the waiting request (R124). -/
theorem Inv.bsGrant {s : State} (h : Inv s) (hwait : s.bs.wait = true) : Inv (bsGrant s) :=
  (h.bsTimeout hwait).acquire (h.waitLatched hwait).1 _ _

/-- BS_WORK puts out one slot of the transmission, or ends it and frees the token (R128, R129). -/
theorem Inv.bsWork {s t : State} (h : Inv s) (hdo : bsWork s = .next t) : Inv t := by
  rcases bsWork_cases hdo with ⟨v, hlt, -, rfl⟩ | ⟨-, rfl⟩
  · rw [slotStep_eq]
    exact
      { h with
        cursorLe := by
          have hsucc := toNat_succ_of_lt hlt
          rw [BitVec.lt_def] at hlt
          simp only [State.clearPend_bs, BitVec.le_def, hsucc]
          omega
        pendToken := by simp
        chPulse := fun htoken => by
          have hold := h.chPulse htoken
          simp only [State.clearPend_ch, State.clearPend_bs, slotPulse]
          split_ifs
          · exact .inr rfl
          · exact .inl rfl
          · exact hold }
  · rw [endStep_eq]
    exact
      { h with
        tokenRun := rfl
        pendToken := by simp
        periodNe := by simp
        chPulse := by simp }

/-! ### The counters of the Pulse-Pattern Transmitter -/

/-- A preamble tick counts on, or the data phase begins (R176). -/
theorem afterPreambleTick_cases (ticks : BitVec 16) (p : PulsePattern) :
    (p.pre.toNat + 1 < ticks.toNat ∧ afterPreambleTick ticks p = { p with pre := p.pre + 1 }) ∨
    afterPreambleTick ticks p = { p with pre := 0, phase := .data } := by
  unfold afterPreambleTick
  split
  · exact .inl ⟨‹_›, rfl⟩
  · exact .inr rfl

/-- A data tick goes on in its bit, goes on to the next bit, starts the next frame or stops (R177, R178). -/
theorem afterDataTick_cases (p : PulsePattern) :
    (p.sub < 3 ∧ afterDataTick p = { p with sub := p.sub + 1 }) ∨
    (p.bit < 23 ∧ afterDataTick p = { p with sub := 0, bit := p.bit + 1 }) ∨
    (p.retries ≠ 0 ∧
      afterDataTick p = { p with sub := 0, bit := 0, retries := p.retries - 1, phase := .preamble }) ∨
    afterDataTick p = { p with sub := 0, bit := 0, run := false, phase := .idle } := by
  unfold afterDataTick frameEnd
  split
  · exact .inl ⟨‹_›, rfl⟩
  split
  · exact .inr (.inl ⟨‹_›, rfl⟩)
  split
  · exact .inr (.inr (.inl ⟨‹_›, rfl⟩))
  · exact .inr (.inr (.inr rfl))

/-- A tick keeps the invariants where its counters do: it writes nothing else that they speak of. -/
theorem Inv.ppOutput {s : State} {p : PulsePattern} (h : Inv { s with pp := p }) (level : Bool) :
    Inv (s.ppOutput level p) := by
  rw [ppOutput_eq]
  exact { h with }

/-- PP_TICK keeps the invariants (R39 (6), (7), R35). -/
theorem Inv.ppTick {s t : State} (h : Inv s) (hen : s.pp.run = true) (hdo : ppTick s = .next t) : Inv t := by
  rcases ppTick_cases hdo with ⟨hphase, rfl⟩ | ⟨hphase, hbit, rfl⟩
  · obtain ⟨hpre, hbit, hsub⟩ := h.ppPreamble hphase
    rcases afterPreambleTick_cases s.cfg.ppPreambleTicks s.pp with ⟨hlt, he⟩ | he <;>
      rw [he] <;> apply Inv.ppOutput
    · exact
        { h with
          ppPreamble := fun _ => ⟨(toNat_succ_of_lt hpre).symm ▸ hlt, hbit, hsub⟩
          ppData := fun hd => by simp [hphase] at hd
          ppIdle := fun hd => by simp [hphase] at hd }
    · exact
        { h with
          ppRun := by simp [hen]
          ppPreamble := by simp
          ppData := fun _ => ⟨rfl, by simp [hbit]⟩
          ppIdle := by simp }
  · obtain ⟨hpre, hlt⟩ := h.ppData hphase
    rcases afterDataTick_cases s.pp with ⟨-, he⟩ | ⟨hlt, he⟩ | ⟨hne, he⟩ | he <;>
      rw [he] <;> apply Inv.ppOutput
    · exact
        { h with
          ppPreamble := fun hd => by simp [hphase] at hd
          ppIdle := fun hd => by simp [hphase] at hd }
    · exact
        { h with
          ppPreamble := fun hd => by simp [hphase] at hd
          ppData := fun _ => ⟨hpre, by bv_omega⟩
          ppIdle := fun hd => by simp [hphase] at hd }
    · exact
        { h with
          ppRun := by simp [hen]
          ppPreamble := fun _ => ⟨by simpa [hpre] using Config.ppPreambleTicks_pos h.cfgWf, rfl, rfl⟩
          ppData := by simp
          ppIdle := by simp
          ppRetries := fun _ => by have := h.ppRetries hen; bv_omega }
    · exact
        { h with
          ppRun := by simp
          ppPreamble := by simp
          ppData := by simp
          ppIdle := fun _ => ⟨hpre, rfl, rfl⟩
          ppRetries := by simp }

/-! ### Steps -/

/-- PP.PRESS loads the counters of a first frame (R171). -/
theorem Inv.startFrames {s : State} (h : Inv s) (key : Byte) : Inv { s with pp := startFrames s.cfg key } :=
  { h with
    ppRun := by simp [Machine.startFrames]
    ppPreamble := fun _ => ⟨by simpa [Machine.startFrames] using Config.ppPreambleTicks_pos h.cfgWf, rfl, rfl⟩
    ppData := by simp [Machine.startFrames]
    ppIdle := by simp [Machine.startFrames]
    ppRetries := fun _ => BitVec.le_refl _ }

/-- The HOST step keeps the invariants, whichever command the port accepts (R87). -/
theorem Inv.hostStep {s t : State} (h : Inv s) (hwait : s.bs.wait = false) (hdo : hostStep s = .next t) :
    Inv t := by
  rcases hostStep_cases hdo with ⟨-, rfl⟩ | ⟨p, rest, _, -, -, rfl⟩ | ⟨p, rest, i, -, hdecode, hexec⟩
  · exact h
  · exact h.answer hwait p rest _ _
  rcases exec_cases hexec with ⟨code, data, rfl, -⟩ | ⟨stg, code, hlen, hfill, rfl, -⟩ |
    ⟨stg, code, hlen, hfill, rfl, -⟩ | ⟨sp, cp, pw, -, hsp, -, rfl⟩ | ⟨sp, cp, pw, rfl, hsp, -, hbound, rfl⟩ |
    ⟨_, key, -, -, -, rfl⟩
  · exact h.answer hwait p rest code data
  · exact (h.withStaging hlen hfill).answer hwait p rest code 0
  · exact ((h.withToggle (!s.toggle)).withStaging hlen hfill).answer hwait p rest code 0
  · exact (h.answer hwait p rest .ok 0).acquire hsp cp pw
  · exact h.startWait hwait hdecode hsp hbound rest
  · exact (h.startFrames key).answer hwait p rest .ok 0

/-- Every chosen step keeps the invariants. -/
theorem Inv.takeMove {m : Move} {s t : State} (h : Inv s) (hdo : takeMove m s = .next t) : Inv t := by
  rcases takeMove_cases hdo with ⟨-, rfl⟩ | ⟨hen, hdo⟩
  · exact h
  cases m with
  | host => exact h.hostStep ((enabled_host_iff s).1 hen).1 hdo
  | bsTick => exact Host.Outcome.next.inj hdo ▸ h.bsTick hen
  | bsWork => exact h.bsWork hdo
  | bsGrant =>
    obtain ⟨hwait, -⟩ : s.bs.wait = true ∧ s.bs.token = false := by simpa [enabled] using hen
    exact Host.Outcome.next.inj hdo ▸ h.bsGrant hwait
  | bsTimeout => exact Host.Outcome.next.inj hdo ▸ h.bsTimeout hen
  | ppTick => exact h.ppTick hen hdo
  | reset => exact Host.Outcome.next.inj hdo ▸ h.resetStep

/-- Settles O47: the chosen step keeps the invariants, and the choice itself touches only the environment. -/
theorem invKeptByEveryStep : Obligations.InvKeptByEveryStep := fun _ _ h hstep => h.afterMove.takeMove hstep

/-- Settles O46: the configuration at reset meets R245. -/
theorem invAtReset : Obligations.InvAtReset := Inv.resetWith Config.atReset_wf

end Sys2Proof.Machine
end

section
/-! PROOFS. The whole machine: what every step does to the configuration, the log, the devices and the cursor. -/

namespace Sys2Proof.Machine

/-- Settles O49: no step changes the configuration. -/
theorem configurationNeverChanges : Obligations.ConfigurationNeverChanges := by
  intro s t hstep
  simpa using takeMove_cfg hstep

/-- Settles O51: each way to a device is one of its owners' steps, and each of these issues one operation. -/
theorem onlyOwnersOperateDevices : Obligations.OnlyOwnersOperateDevices := by
  refine ⟨fun s t hstep hm => ⟨fun hchan => ?_, fun hpin => ?_⟩, fun s t hstep hm => ⟨?_, ?_⟩, ?_⟩
  · rcases takeMove_channel hstep hm with ⟨hch, htrace, -⟩ | ⟨hw, hpend, -⟩ | ⟨hg, hwait, -⟩ |
      ⟨hhost, hwait, sp, cp, pw, _, _, hoffered, -⟩
    · simp [hch, htrace] at hchan
    · exact .inl ⟨hw, by simpa using hpend⟩
    · exact .inr (.inl ⟨hg, by simpa using hwait⟩)
    · exact .inr (.inr ⟨sp, cp, pw, hhost, by simpa using hwait, by simpa [State.offered] using hoffered⟩)
  · rcases takeMove_pin hstep hm with ⟨hlevel, htrace⟩ | ⟨htick, hrun, -⟩
    · simp [hlevel, htrace] at hpin
    · exact ⟨htick, by simpa using hrun⟩
  · rcases takeMove_channel hstep hm with ⟨-, htrace, -⟩ | ⟨-, -, hwork⟩ | ⟨-, -, -, rfl⟩ |
      ⟨-, -, _, cp, _, _, _, -, -, rfl⟩
    · exact .inl (by simpa using htrace)
    · obtain ⟨op, ht⟩ := bsWork_frame hwork
      exact .inr ⟨op, by rw [ht]; simp⟩
    · exact .inr ⟨.cfg s.bs.waitCp, by simp [bsGrant, acquire_eq]⟩
    · exact .inr ⟨.cfg cp, by simp [acquire_eq]⟩
  · rcases takeMove_pin hstep hm with ⟨-, htrace⟩ | ⟨-, -, htick⟩
    · exact .inl (by simpa using htrace)
    · obtain ⟨level, ht⟩ := ppTick_frame htick
      exact .inr ⟨level, by rw [ht]; simp⟩
  · intro s t hreset
    obtain rfl := Host.Outcome.next.inj hreset
    rfl

/-- An acquisition that moves the cursor takes the token and sets the cursor to zero (R25, R122). -/
theorem acquire_cursor {sp cp pw : Duration} {s : State} (h : (acquire sp cp pw s).bs.cursor ≠ s.bs.cursor) :
    (acquire sp cp pw s).bs.token = true ∧ (acquire sp cp pw s).bs.cursor = 0 := by
  rcases acquire_cases sp cp pw s with ⟨-, he⟩ | ⟨-, he⟩ <;> rw [he] at h ⊢
  · exact ⟨rfl, rfl⟩
  · exact absurd rfl h

/-- Work that moves the cursor advances it by one, to `bs_len` at most (R25, R128). -/
theorem bsWork_cursor {s t : State} (h : bsWork s = .next t) (hne : t.bs.cursor ≠ s.bs.cursor) :
    t.bs.cursor.toNat = s.bs.cursor.toNat + 1 ∧ t.bs.cursor ≤ s.bs.len := by
  rcases bsWork_cases h with ⟨v, hlt, -, rfl⟩ | ⟨-, rfl⟩
  · have hsucc := toNat_succ_of_lt hlt
    rw [slotStep_eq]
    exact ⟨hsucc, by rw [BitVec.le_def]; exact hsucc ▸ hlt⟩
  · rw [endStep_eq] at hne
    exact absurd rfl hne

/-- Settles O35: the cursor moves in the slot step, and an acquisition sets it to zero. -/
theorem cursorMovesByOne : Obligations.CursorMovesByOne := by
  intro s t _ hstep hm hne
  have hne' : t.bs.cursor ≠ s.afterMove.bs.cursor := by simpa using hne
  rcases takeMove_channel hstep hm with ⟨-, -, hsame⟩ | ⟨hw, hpend, hwork⟩ | ⟨-, -, htoken, rfl⟩ |
    ⟨-, -, _, _, _, _, _, -, htoken, rfl⟩
  · exact absurd hsame hne'
  · exact .inl ⟨hw, by simpa using hpend, by simpa using bsWork_cursor hwork hne'⟩
  · exact .inr ⟨by simpa using htoken, acquire_cursor hne'⟩
  · exact .inr ⟨by simpa using htoken, acquire_cursor hne'⟩

/-- Settles O45: RESET keeps the configuration and the environment and puts the rest at its value of R46. -/
theorem resetValues : Obligations.ResetValues := by
  refine ⟨fun t ht => ?_, fun s => ⟨rfl, resetStep s, rfl, rfl, rfl⟩⟩
  obtain ⟨cfg, env, rfl⟩ : ∃ cfg env, t = { State.resetWith cfg with env := env } := by
    rcases ht with rfl | ⟨s, hs⟩
    · exact ⟨Config.atReset, State.reset.env, rfl⟩
    · exact ⟨s.cfg, s.env, (Host.Outcome.next.inj hs).symm⟩
  exact ⟨rfl, rfl, rfl, rfl, rfl, rfl, rfl, rfl, by simp [internalMoves, enabled, State.resetWith]⟩

end Sys2Proof.Machine
end

section
/-! PROOFS. The status window (R40 to R43): which register RD answers, and the fields of its packed words. -/

namespace Sys2Proof.Machine

/-! ### RD -/

theorem exec_rd_of_window {reg : Byte} {s : State} {w : Word} (h : s.statusWindow reg = some w) :
    exec (.rd reg) s = .next (s.plusResponse .ok w) := by
  simp only [exec, execRd, h]
  rfl

theorem exec_rd_outside {reg : Byte} {s : State} (h : s.statusWindow reg = none) :
    exec (.rd reg) s = .next (s.plusResponse .illegal 0) := by
  simp only [exec, execRd, h]
  rfl

/-- The window has a register up to index `0x0B` (R40). -/
theorem State.statusWindow_of_le (s : State) {reg : Byte} (h : reg ≤ 0x0B) : ∃ w, s.statusWindow reg = some w := by
  have hlisted : reg ∈ [0x00#8, 0x01#8, 0x02#8, 0x03#8, 0x04#8, 0x05#8, 0x06#8, 0x07#8, 0x08#8, 0x09#8, 0x0A#8,
      0x0B#8] := by
    revert reg
    decide
  simp only [List.mem_cons, List.not_mem_nil, or_false] at hlisted
  rcases hlisted with rfl | rfl | rfl | rfl | rfl | rfl | rfl | rfl | rfl | rfl | rfl | rfl <;> exact ⟨_, rfl⟩

/-- The window ends at index `0x0B` (R40, R84 case 3). -/
theorem State.statusWindow_of_gt (s : State) {reg : Byte} (h : 0x0B < reg) : s.statusWindow reg = none := by
  have hne : ∀ k : Byte, k ≤ 0x0B → reg ≠ k := fun k hk he => BitVec.not_lt.2 hk (he ▸ h)
  simp [State.statusWindow, hne]

/-- Settles O11: RD answers what the window holds, and the window has the registers of R40. -/
theorem rdReadsStatusWindow : Obligations.RdReadsStatusWindow := by
  refine ⟨fun s reg h => ?_, fun s reg h => exec_rd_outside (s.statusWindow_of_gt h), fun s => ?_⟩
  · obtain ⟨w, hw⟩ := s.statusWindow_of_le h
    exact ⟨w, exec_rd_of_window hw⟩
  · simp only [BitVec.ofNat_toNat]
    refine ⟨?_, ?_, ?_, ?_, ?_, ?_, ?_, ?_, ?_⟩ <;> exact exec_rd_of_window rfl

/-! ### Packed words: every bit position falls on one side of each append, which omega decides -/

/-- A field cut out of a word is the value whose bits stand there. -/
theorem extractLsb'_eq_of_getLsbD {n len start : Nat} {w : BitVec n} {x : BitVec len}
    (h : ∀ i < len, w.getLsbD (start + i) = x.getLsbD i) : w.extractLsb' start len = x :=
  BitVec.eq_of_getLsbD_eq fun i hi => by simp [hi, h i hi]

/-- The bits of STATUS (R41). -/
theorem State.statusWord_fields (s : State) :
    s.statusWord.getLsbD 0 = s.bs.token ∧ s.statusWord.getLsbD 1 = s.bs.run ∧
    s.statusWord.getLsbD 2 = s.bs.pend ∧ s.statusWord.getLsbD 3 = s.toggle ∧
    s.statusWord.extractLsb' 4 2 = s.pp.phase.bits ∧
    s.statusWord.getLsbD 6 = s.pp.run ∧ s.statusWord.getLsbD 7 = s.pin ∧ s.statusWord.extractLsb' 8 24 = 0 := by
  refine ⟨?_, ?_, ?_, ?_, extractLsb'_eq_of_getLsbD fun i hi => ?_, ?_, ?_,
      extractLsb'_eq_of_getLsbD fun i hi => ?_⟩ <;>
    simp (disch := omega) only [State.statusWord, BitVec.getLsbD_append, if_neg, if_pos] <;>
    simp [Nat.sub_sub]

/-- The fields of PP_COUNT (R42). -/
theorem PulsePattern.countWord_fields (p : PulsePattern) :
    p.countWord.extractLsb' 0 8 = p.retries ∧ p.countWord.extractLsb' 8 5 = p.bit ∧
    p.countWord.extractLsb' 13 2 = p.sub ∧ p.countWord.getLsbD 15 = false ∧
    p.countWord.extractLsb' 16 16 = p.pre := by
  refine ⟨extractLsb'_eq_of_getLsbD fun i hi => ?_, extractLsb'_eq_of_getLsbD fun i hi => ?_,
      extractLsb'_eq_of_getLsbD fun i hi => ?_, ?_, extractLsb'_eq_of_getLsbD fun i hi => ?_⟩ <;>
    simp (disch := omega) only [PulsePattern.countWord, BitVec.getLsbD_append, if_neg, if_pos] <;>
    simp [Nat.sub_sub]

/-- The bits of ERRLOG (R43). -/
theorem ErrLog.word_fields (e : ErrLog) :
    e.word.getLsbD 0 = e.bsTickErr ∧ e.word.getLsbD 1 = e.ppTickErr ∧ e.word.getLsbD 2 = e.bsOverrun ∧
    e.word.extractLsb' 3 29 = 0 := by
  refine ⟨?_, ?_, ?_, extractLsb'_eq_of_getLsbD fun i hi => ?_⟩ <;>
    simp (disch := omega) only [ErrLog.word, BitVec.getLsbD_append, if_neg, if_pos] <;>
    simp

/-- Settles O10: RD answers the packed words, and their fields stand where R41 and R42 say. -/
theorem rdStatusAndPpCountBits : Obligations.RdStatusAndPpCountBits := by
  refine ⟨fun s => ⟨s.statusWord, exec_rd_of_window rfl, ?_⟩,
    fun s => ⟨s.pp.countWord, exec_rd_of_window rfl, s.pp.countWord_fields⟩⟩
  obtain ⟨htoken, hrun, hpend, htoggle, hphase, hpprun, hpin, hzero⟩ := s.statusWord_fields
  refine ⟨htoken, hrun, hpend, htoggle, ?_, ?_, ?_, hpprun, hpin, hzero⟩ <;>
    · intro h
      rw [hphase, h]
      rfl

/-- Settles O50: RD answers the packed log, and each bit is set by its one event and stays set. -/
theorem errlogRecordsInFlightFaults : Obligations.ErrlogRecordsInFlightFaults := by
  refine ⟨fun s => ⟨s.errlog.word, exec_rd_of_window rfl, s.errlog.word_fields⟩, fun s t hstep hm => ?_⟩
  have hlog := takeMove_errlog hstep hm
  simp only [State.afterMove_errlog, State.afterMove_bs, State.afterMove_pp, State.afterMove_chanAnswer,
    State.afterMove_pinAnswer] at hlog
  rw [hlog]
  exact ⟨rfl, rfl, rfl⟩

end Sys2Proof.Machine
end

section
/-! PROOFS. The transmission in flight, the staging sequence and the transmitter: who takes and releases the token
(R72 to R74), who writes the slot buffers and the toggle (R32, R61), and that the Burst Sequencer and the
Pulse-Pattern Transmitter do not touch each other (R70, R181). -/

namespace Sys2Proof.Machine

@[simp] theorem State.afterMove_offered (s : State) : s.afterMove.offered = s.offered := by
  simp [State.offered]

/-! ### The HOST step as the offered command -/

/-- A HOST step runs the offered command, or leaves the slot buffers, the toggle and the sequencer (R84, R87). -/
theorem takeMove_host_cases {s t : State} (h : takeMove .host s = .next t) :
    (t.stg = s.stg ∧ t.toggle = s.toggle ∧ t.bs = s.bs) ∨
    (s.bs.wait = false ∧ ∃ p rest i, s.offered = some i ∧ exec i (s.takePacket p rest) = .next t) := by
  rcases takeMove_cases h with ⟨-, rfl⟩ | ⟨hen, hdo⟩
  · simp
  rcases hostStep_cases hdo with ⟨-, rfl⟩ | ⟨p, rest, _, -, -, rfl⟩ | ⟨p, rest, i, hport, hdecode, hexec⟩
  · simp
  · simp
  · exact .inr ⟨((enabled_host_iff s).1 hen).1, p, rest, i, by simp [State.offered, hport, hdecode], hexec⟩

/-! ### The token -/

/-- The token is taken from `s` to `t`: free and then held, the channel accepting, the staged sequence active from
its first slot (R122). -/
structure TakesToken (s t : State) : Prop where
  free : s.bs.token = false
  accepts : s.chanAnswer = .ok
  held : t.bs.token = true
  cursor : t.bs.cursor = 0
  act : t.bs.act = s.stg.cells
  len : t.bs.len = s.stg.fill

/-- The acquisition step takes the free token, or leaves token and active sequence where the channel refuses. -/
theorem acquire_token {s : State} (hfree : s.bs.token = false) (sp cp pw : Duration) :
    ((acquire sp cp pw s).bs.token = s.bs.token ∧ (acquire sp cp pw s).bs.act = s.bs.act) ∨
    TakesToken s (acquire sp cp pw s) := by
  rcases acquire_cases sp cp pw s with ⟨hok, he⟩ | ⟨-, he⟩ <;> rw [he]
  · exact .inr ⟨hfree, hok, rfl, rfl, rfl, rfl⟩
  · exact .inl ⟨rfl, rfl⟩

/-- A command writes of the sequencer and the channel at most the wait registers, unless it is a BS.SEND that
acquires the free token (R121, R133). -/
theorem exec_transmission {i : Instr} {s t : State} (h : exec i s = .next t) :
    (t.ch = s.ch ∧ t.obs.chanTrace = s.obs.chanTrace ∧
      t.bs =
        { s.bs with
          wait := t.bs.wait, waitSp := t.bs.waitSp, waitCp := t.bs.waitCp, waitPw := t.bs.waitPw }) ∨
    ∃ sp cp pw, i = .bsSend sp cp pw ∧ s.bs.token = false ∧ t = acquire sp cp pw s := by
  rcases exec_cases h with ⟨_, _, rfl, -⟩ | ⟨_, _, -, -, rfl, -⟩ | ⟨_, _, -, -, rfl, -⟩ |
    ⟨sp, cp, pw, hi, -, htoken, ht⟩ | ⟨_, _, _, -, -, -, -, rfl⟩ | ⟨_, _, -, -, -, rfl⟩
  case inr.inr.inr.inl => exact .inr ⟨sp, cp, pw, hi, htoken, ht⟩
  all_goals exact .inl ⟨rfl, rfl, rfl⟩

/-- A command takes the token, as BS.SEND, or leaves token and active sequence. -/
theorem exec_token {i : Instr} {s t : State} (h : exec i s = .next t) :
    (t.bs.token = s.bs.token ∧ t.bs.act = s.bs.act) ∨ (∃ sp cp pw, i = .bsSend sp cp pw) ∧ TakesToken s t := by
  rcases exec_transmission h with ⟨-, -, hbs⟩ | ⟨sp, cp, pw, hi, hfree, rfl⟩
  · exact .inl (by rw [hbs]; exact ⟨rfl, rfl⟩)
  · exact (acquire_token hfree sp cp pw).imp_right fun htake => ⟨⟨sp, cp, pw, hi⟩, htake⟩

/-- Work leaves token and active sequence, but for the end step, which releases the token (R129). -/
theorem bsWork_token {s t : State} (h : bsWork s = .next t) :
    t.bs.act = s.bs.act ∧ (t.bs.token = s.bs.token ∨ s.bs.len ≤ s.bs.cursor ∧ t.bs.token = false) := by
  rcases bsWork_cases h with ⟨v, -, -, rfl⟩ | ⟨hend, rfl⟩
  · rw [slotStep_eq]
    exact ⟨rfl, .inl rfl⟩
  · rw [endStep_eq]
    exact ⟨rfl, .inr ⟨BitVec.not_lt.1 hend, rfl⟩⟩

/-- What each step other than RESET does to the token and the active sequence: nothing, the release by the end
step, or an acquisition by BS_GRANT or by BS.SEND at the port (R72 to R74). -/
theorem takeMove_token {m : Move} {s t : State} (h : takeMove m s = .next t) (hm : m ≠ .reset) :
    (t.bs.token = s.bs.token ∧ t.bs.act = s.bs.act) ∨
    (m = .bsWork ∧ s.bs.pend = true ∧ s.bs.len ≤ s.bs.cursor ∧ t.bs.token = false ∧ t.bs.act = s.bs.act) ∨
    (TakesToken s t ∧ ((m = .bsGrant ∧ s.bs.wait = true) ∨
      (m = .host ∧ s.bs.wait = false ∧ ∃ sp cp pw, s.offered = some (.bsSend sp cp pw)))) := by
  by_cases hhost : m = .host
  · subst hhost
    rcases takeMove_host_cases h with ⟨-, -, hbs⟩ | ⟨hwait, p, rest, i, hoffered, hexec⟩
    · exact .inl (by simp [hbs])
    rcases exec_token hexec with hsame | ⟨⟨sp, cp, pw, rfl⟩, htake⟩
    · exact .inl hsame
    · exact .inr (.inr ⟨{ htake with }, .inr ⟨rfl, hwait, sp, cp, pw, hoffered⟩⟩)
  rcases takeMove_cases h with ⟨-, rfl⟩ | ⟨hen, hdo⟩
  · exact .inl ⟨rfl, rfl⟩
  cases m with
  | host => exact absurd rfl hhost
  | bsTick =>
    obtain rfl := Host.Outcome.next.inj hdo
    exact .inl (by simp [bsTick_eq])
  | bsWork =>
    obtain ⟨hact, hsame | ⟨hend, hfree⟩⟩ := bsWork_token hdo
    · exact .inl ⟨hsame, hact⟩
    · exact .inr (.inl ⟨rfl, hen, hend, hfree, hact⟩)
  | bsGrant =>
    obtain rfl := Host.Outcome.next.inj hdo
    obtain ⟨hwait, hfree⟩ : s.bs.wait = true ∧ s.bs.token = false := by simpa [enabled] using hen
    rcases acquire_token (s := s.endWait) hfree s.bs.waitSp s.bs.waitCp s.bs.waitPw with hsame | htake
    · exact .inl hsame
    · exact .inr (.inr ⟨{ htake with }, .inl ⟨rfl, hwait⟩⟩)
  | bsTimeout =>
    obtain rfl := Host.Outcome.next.inj hdo
    exact .inl (by simp [bsTimeout])
  | ppTick =>
    obtain ⟨_, ht⟩ := ppTick_frame hdo
    exact .inl (by rw [ht]; exact ⟨rfl, rfl⟩)
  | reset => exact absurd rfl hm

/-- Settles O33: a command that reaches the transmission needs the free token, and only the end step of BS_WORK
and RESET release a held one. -/
theorem transmissionUndisturbed : Obligations.TransmissionUndisturbed := by
  refine ⟨fun i s t hheld hexec => ?_, fun s t hheld hstep hreleased => ?_⟩
  · rcases exec_transmission hexec with hsame | ⟨_, _, _, -, hfree, -⟩
    · exact hsame
    · simp [hheld] at hfree
  · by_cases hm : s.nextMove = .reset
    · exact .inl hm
    rcases takeMove_token hstep hm with ⟨hsame, -⟩ | ⟨hw, hpend, hend, -, -⟩ | ⟨htake, -⟩
    · simp [hreleased, hheld] at hsame
    · exact .inr ⟨hw, by simpa using hpend, by simpa using hend⟩
    · simp [htake.held] at hreleased

/-- Settles O34: the only steps after which a free token is held are the two acquisitions. -/
theorem tokenAcquiredOnlyByAcquisition : Obligations.TokenAcquiredOnlyByAcquisition := by
  intro s t hfree hstep hheld
  have hm : s.nextMove ≠ .reset := by
    intro hreset
    rw [step, hreset] at hstep
    obtain rfl := Host.Outcome.next.inj hstep
    exact absurd hheld Bool.false_ne_true
  rcases takeMove_token hstep hm with ⟨hsame, -⟩ | ⟨-, -, -, hreleased, -⟩ | ⟨htake, hby⟩
  · simp [hheld, hfree] at hsame
  · simp [hheld] at hreleased
  · refine ⟨by simpa using htake.accepts, htake.cursor, by simpa using htake.act, by simpa using htake.len, ?_⟩
    rcases hby with ⟨hgrant, hwait⟩ | ⟨hhost, hwait, sp, cp, pw, hoffered⟩
    · exact .inl ⟨hgrant, by simpa using hwait⟩
    · exact .inr ⟨sp, cp, pw, hhost, by simpa using hwait, by simpa using hoffered⟩

/-! ### The staging sequence and the toggle -/

/-- The commands that may write the staging sequence, and the one of them that writes the toggle (R32, R61). -/
theorem exec_writers {i : Instr} {s t : State} (h : exec i s = .next t) :
    (t.toggle ≠ s.toggle → i = .encBiph .power) ∧
    (t.stg ≠ s.stg →
      i = .seqClr ∨ (∃ v, i = .seqPush v) ∨ (∃ al ah cmd, i = .encNec al ah cmd) ∨ i = .encBiph .power) := by
  rcases exec_cases h with ⟨_, _, rfl, -⟩ | ⟨_, _, -, -, rfl, hi⟩ | ⟨_, _, -, -, rfl, hi⟩ |
    ⟨sp, cp, pw, -, -, -, rfl⟩ | ⟨_, _, _, -, -, -, -, rfl⟩ | ⟨_, _, -, -, -, rfl⟩
  case inr.inl =>
    refine ⟨by simp, fun _ => ?_⟩
    rcases hi with hclr | hpush | hnec
    · exact .inl hclr
    · exact .inr (.inl hpush)
    · exact .inr (.inr (.inl hnec))
  case inr.inr.inl => exact ⟨fun _ => hi, fun _ => .inr (.inr (.inr hi))⟩
  all_goals simp [acquire_eq]

/-- Of the steps other than RESET only the HOST step writes the staging sequence or the toggle. -/
theorem takeMove_staging {m : Move} {s t : State} (h : takeMove m s = .next t) (hm : m ≠ .reset)
    (hhost : m ≠ .host) : t.stg = s.stg ∧ t.toggle = s.toggle := by
  rcases takeMove_cases h with ⟨-, rfl⟩ | ⟨-, hdo⟩
  · exact ⟨rfl, rfl⟩
  cases m with
  | host => exact absurd rfl hhost
  | bsTick =>
    obtain rfl := Host.Outcome.next.inj hdo
    simp [bsTick_eq]
  | bsWork =>
    obtain ⟨_, ht⟩ := bsWork_frame hdo
    rw [ht]
    exact ⟨rfl, rfl⟩
  | bsGrant =>
    obtain rfl := Host.Outcome.next.inj hdo
    simp [bsGrant, acquire_eq]
  | bsTimeout =>
    obtain rfl := Host.Outcome.next.inj hdo
    simp [bsTimeout]
  | ppTick =>
    obtain ⟨_, ht⟩ := ppTick_frame hdo
    rw [ht]
    exact ⟨rfl, rfl⟩
  | reset => exact absurd rfl hm

/-- A step other than RESET that writes the staging sequence or the toggle runs an offered command. -/
theorem step_staging {s t : State} (h : step s = .next t) (hm : s.nextMove ≠ .reset) :
    (t.stg = s.stg ∧ t.toggle = s.toggle) ∨
    ∃ p rest i, s.runsNext i ∧ exec i (s.afterMove.takePacket p rest) = .next t := by
  by_cases hhost : s.nextMove = .host
  · have hdo : takeMove .host s.afterMove = .next t := hhost ▸ h
    rcases takeMove_host_cases hdo with ⟨hstg, htoggle, -⟩ | ⟨hwait, p, rest, i, hoffered, hexec⟩
    · exact .inl (by simp [hstg, htoggle])
    · exact .inr ⟨p, rest, i, ⟨hhost, by simpa using hwait, by simpa using hoffered⟩, hexec⟩
  · exact .inl (by simpa using takeMove_staging h hm hhost)

/-- Settles O52: the staging sequence and the toggle are written by offered commands, the active sequence by an
acquisition. -/
theorem onlyEncodersWriteStaging : Obligations.OnlyEncodersWriteStaging := by
  intro s t hstep hm
  have hact : t.bs.act ≠ s.bs.act → s.bs.token = false ∧ t.bs.token = true := by
    intro hne
    rcases takeMove_token hstep hm with ⟨-, hsame⟩ | ⟨-, -, -, -, hsame⟩ | ⟨htake, -⟩
    · exact absurd (by simpa using hsame) hne
    · exact absurd (by simpa using hsame) hne
    · exact ⟨by simpa using htake.free, htake.held⟩
  rcases step_staging hstep hm with ⟨hstg, htoggle⟩ | ⟨p, rest, i, hruns, hexec⟩
  · exact ⟨fun hne => absurd hstg hne, fun hne => absurd htoggle hne, hact⟩
  obtain ⟨htoggle, hstg⟩ := exec_writers hexec
  simp only [State.takePacket_stg, State.takePacket_toggle, State.afterMove_stg, State.afterMove_toggle]
    at htoggle hstg
  refine ⟨fun hne => ?_, fun hne => htoggle hne ▸ hruns, hact⟩
  rcases hstg hne with rfl | ⟨v, rfl⟩ | ⟨al, ah, cmd, rfl⟩ | rfl
  · exact .inl hruns
  · exact .inr (.inl ⟨v, hruns⟩)
  · exact .inr (.inr (.inl ⟨al, ah, cmd, hruns⟩))
  · exact .inr (.inr (.inr hruns))

/-! ### Two devices: an operation of the one leaves the next answer of the other (R227, R228) -/

theorem Environment.afterPin_afterChan (e : Environment) : e.afterPin.afterChan = e.afterChan.afterPin := by
  obtain ⟨_, _, chan, pin, _, _, _⟩ := e
  cases chan <;> cases pin <;> rfl

theorem State.pinAnswer_of_afterChan {s t : State} (h : t.env = s.env.afterChan) : t.pinAnswer = s.pinAnswer := by
  simp [State.pinAnswer, h]

theorem State.chanAnswer_of_afterPin {s t : State} (h : t.env = s.env.afterPin) : t.chanAnswer = s.chanAnswer := by
  simp [State.chanAnswer, h]

/-! ### Each step of the sequencer commutes with an output of the transmitter (R181) -/

section
variable (level : Bool) (p : PulsePattern) (s : State)

@[simp] theorem State.ppOutput_bs : (s.ppOutput level p).bs = s.bs := by simp [State.ppOutput]

@[simp] theorem State.ppOutput_env : (s.ppOutput level p).env = s.env.afterPin := by simp [State.ppOutput]

@[simp] theorem State.ppOutput_chanAnswer : (s.ppOutput level p).chanAnswer = s.chanAnswer :=
  State.chanAnswer_of_afterPin (s.ppOutput_env level p)

theorem State.endWait_ppOutput : (s.ppOutput level p).endWait = s.endWait.ppOutput level p := by
  simp only [ppOutput_eq]
  rfl

theorem State.clearPend_ppOutput : (s.ppOutput level p).clearPend = s.clearPend.ppOutput level p := by
  simp only [ppOutput_eq]
  rfl

theorem bsTick_ppOutput : bsTick (s.ppOutput level p) = (bsTick s).ppOutput level p := by
  simp only [bsTick_eq, ppOutput_eq]
  rfl

theorem bsTimeout_ppOutput : bsTimeout (s.ppOutput level p) = (bsTimeout s).ppOutput level p := by
  simp only [ppOutput_eq]
  rfl

theorem acquire_ppOutput (sp cp pw : Duration) :
    acquire sp cp pw (s.ppOutput level p) = (acquire sp cp pw s).ppOutput level p := by
  have hpin : (acquire sp cp pw s).pinAnswer = s.pinAnswer :=
    State.pinAnswer_of_afterChan (by rw [acquire_eq])
  rw [acquire_eq, State.ppOutput_chanAnswer, ppOutput_eq, ppOutput_eq, hpin, acquire_eq]
  simp [State.acquired, Environment.afterPin_afterChan]

theorem bsGrant_ppOutput : bsGrant (s.ppOutput level p) = (bsGrant s).ppOutput level p := by
  rw [bsGrant, State.endWait_ppOutput, acquire_ppOutput, State.ppOutput_bs, bsGrant]

theorem slotStep_ppOutput (v : Bool) : slotStep v (s.ppOutput level p) = (slotStep v s).ppOutput level p := by
  have hpin : (slotStep v s).pinAnswer = s.pinAnswer :=
    State.pinAnswer_of_afterChan (by rw [slotStep_eq])
  rw [slotStep_eq, State.ppOutput_chanAnswer, ppOutput_eq, ppOutput_eq, hpin, slotStep_eq]
  simp [Environment.afterPin_afterChan]

theorem endStep_ppOutput : endStep (s.ppOutput level p) = (endStep s).ppOutput level p := by
  have hpin : (endStep s).pinAnswer = s.pinAnswer :=
    State.pinAnswer_of_afterChan (by rw [endStep_eq])
  rw [endStep_eq, State.ppOutput_chanAnswer, ppOutput_eq, ppOutput_eq, hpin, endStep_eq]
  simp [Environment.afterPin_afterChan]

end

theorem bsWork_ppOutput {s u : State} (h : bsWork s = .next u) (level : Bool) (p : PulsePattern) :
    bsWork (s.ppOutput level p) = .next (u.ppOutput level p) := by
  rcases bsWork_cases h with ⟨v, hlt, hslot, rfl⟩ | ⟨hend, rfl⟩
  · simp [bsWork, hlt, hslot, State.clearPend_ppOutput, slotStep_ppOutput]
  · simp [bsWork, hend, State.clearPend_ppOutput, endStep_ppOutput]

/-- The steps of the Burst Sequencer. -/
def sequencerMoves : List Move := [.bsTick, .bsWork, .bsGrant, .bsTimeout]

theorem mem_sequencerMoves {m : Move} :
    m ∈ sequencerMoves ↔ m = .bsTick ∨ m = .bsWork ∨ m = .bsGrant ∨ m = .bsTimeout := by
  simp [sequencerMoves]

/-- A step of the sequencer takes the transmitter's output with it. -/
theorem takeMove_ppOutput {m : Move} {s u : State} (hm : m ∈ sequencerMoves) (h : takeMove m s = .next u)
    (level : Bool) (p : PulsePattern) : takeMove m (s.ppOutput level p) = .next (u.ppOutput level p) := by
  have hen : enabled m (s.ppOutput level p) = enabled m s := by
    rcases mem_sequencerMoves.1 hm with rfl | rfl | rfl | rfl <;> simp [enabled]
  rcases takeMove_cases h with ⟨hdis, rfl⟩ | ⟨henabled, hdo⟩
  · simp [takeMove, hen, hdis]
  rw [takeMove_of_enabled (hen.trans henabled)]
  rcases mem_sequencerMoves.1 hm with rfl | rfl | rfl | rfl
  · exact Host.Outcome.next.inj hdo ▸ congrArg _ (bsTick_ppOutput level p s)
  · exact bsWork_ppOutput hdo level p
  · exact Host.Outcome.next.inj hdo ▸ congrArg _ (bsGrant_ppOutput level p s)
  · exact Host.Outcome.next.inj hdo ▸ congrArg _ (bsTimeout_ppOutput level p s)

/-- A step of the sequencer leaves the registers of the transmitter (R181). -/
theorem takeMove_pp {m : Move} {s u : State} (hm : m ∈ sequencerMoves) (h : takeMove m s = .next u) :
    u.pp = s.pp := by
  rcases takeMove_cases h with ⟨-, rfl⟩ | ⟨-, hdo⟩
  · rfl
  rcases mem_sequencerMoves.1 hm with rfl | rfl | rfl | rfl
  · obtain rfl := Host.Outcome.next.inj hdo
    rw [bsTick_eq]
  · obtain ⟨_, ht⟩ := bsWork_frame hdo
    rw [ht]
  · obtain rfl := Host.Outcome.next.inj hdo
    simp [bsGrant, acquire_eq]
  · obtain rfl := Host.Outcome.next.inj hdo
    simp [bsTimeout]

/-- What PP_TICK puts out and counts depends on the transmitter's registers and the configuration alone (R174). -/
theorem ppTick_output {s v : State} (h : ppTick s = .next v) :
    ∃ level p, v = s.ppOutput level p ∧
      ∀ u : State, u.pp = s.pp → u.cfg = s.cfg → ppTick u = .next (u.ppOutput level p) := by
  rcases ppTick_cases h with ⟨hphase, rfl⟩ | ⟨hphase, hbit, rfl⟩ <;> refine ⟨_, _, rfl, fun u hpp hcfg => ?_⟩
  · simp [ppTick, hpp, hcfg, hphase]
  · simpa [ppTick, hpp, hphase] using hbit

/-- Settles O44: the tick's output is the same on either side of the sequencer's step, which carries it along. -/
theorem sequencerAndPulsePatternCommute : Obligations.SequencerAndPulsePatternCommute := by
  intro m s u v hm hu hv
  have hm := mem_sequencerMoves.2 hm
  have hpp := takeMove_pp hm hu
  have hen : enabled .ppTick u = enabled .ppTick s := congrArg PulsePattern.run hpp
  rcases takeMove_cases hv with ⟨hdis, rfl⟩ | ⟨henabled, hdo⟩
  · exact ⟨u, by simp [takeMove, hen, hdis], hu⟩
  obtain ⟨level, p, rfl, htick⟩ := ppTick_output hdo
  refine ⟨u.ppOutput level p, ?_, takeMove_ppOutput hm hu level p⟩
  rw [takeMove_of_enabled (hen.trans henabled)]
  exact htick u hpp (takeMove_cfg hu)

end Sys2Proof.Machine
end

section
/-! PROOFS. The encoding (R80 to R84, R93): what a packet with a known opcode decodes to, the rows of the opcode
table field by field, that decoder and encoder are inverse to each other, and the bits of the payload. -/

namespace Sys2Proof

/-! ### The row of a command, read off a packet -/

/-- The must-be-zero fields of the command's row are zero in packet `p` (R83). -/
def Instr.reservedZero (p : Packet) : Instr → Bool
  | .nop => p.a == 0 && p.b == 0 && p.c == 0 && p.wordsZero
  | .rd _ => p.b == 0 && p.c == 0 && p.wordsZero
  | .seqClr => p.a == 0 && p.b == 0 && p.c == 0 && p.wordsZero
  | .seqPush _ => p.a == 0 && p.b == 0 && p.c.extractLsb' 1 7 == 0 && p.wordsZero
  | .seqGet _ => p.a == 0 && p.wordsZero
  | .encNec _ _ _ => p.wordsZero
  | .encBiph _ => p.a == 0 && p.b == 0 && p.c.extractLsb' 2 6 == 0 && p.wordsZero
  | .bsSend _ _ _ => p.a == 0 && p.b == 0 && p.c == 0
  | .ppPress _ => p.a == 0 && p.b == 0 && p.c.extractLsb' 2 6 == 0 && p.wordsZero

/-- The command of the same row whose operands stand in the fields of packet `p` (R81). -/
def Instr.readFrom (p : Packet) : Instr → Instr
  | .nop => .nop
  | .rd _ => .rd p.a
  | .seqClr => .seqClr
  | .seqPush _ => .seqPush (p.c.getLsbD 0)
  | .seqGet _ => .seqGet (p.b ++ p.c)
  | .encNec _ _ _ => .encNec p.a p.b p.c
  | .encBiph _ => .encBiph (.ofBits (p.c.extractLsb' 0 2))
  | .bsSend _ _ _ => .bsSend p.d0 p.d1 p.d2
  | .ppPress _ => .ppPress (.ofBits (p.c.extractLsb' 0 2))

@[simp] theorem Instr.opcode_readFrom (p : Packet) (i : Instr) : (i.readFrom p).opcode = i.opcode := by
  cases i <;> rfl

@[simp] theorem Instr.reservedZero_readFrom (p : Packet) (i : Instr) :
    (i.readFrom p).reservedZero p = i.reservedZero p := by
  cases i <;> rfl

@[simp] theorem Instr.readFrom_readFrom (p : Packet) (i : Instr) : (i.readFrom p).readFrom p = i.readFrom p := by
  cases i <;> rfl

@[simp] theorem Instr.row_readFrom (p : Packet) (i : Instr) : (i.readFrom p).row = i.row := by
  cases i <;> rfl

/-! ### The decoder -/

/-- The nine opcodes (R83). -/
theorem exists_opcode_eq_iff {op : Byte} :
    (∃ i : Instr, i.opcode = op) ↔
      op ∈ [0x00#8, 0x01#8, 0x10#8, 0x11#8, 0x12#8, 0x20#8, 0x21#8, 0x30#8, 0x40#8] := by
  constructor
  · rintro ⟨i, rfl⟩
    cases i <;> simp [Instr.opcode]
  · intro h
    simp only [List.mem_cons, List.not_mem_nil, or_false] at h
    rcases h with rfl | rfl | rfl | rfl | rfl | rfl | rfl | rfl | rfl
    exacts [⟨.nop, rfl⟩, ⟨.rd 0, rfl⟩, ⟨.seqClr, rfl⟩, ⟨.seqPush false, rfl⟩, ⟨.seqGet 0, rfl⟩, ⟨.encNec 0 0 0, rfl⟩,
      ⟨.encBiph .power, rfl⟩, ⟨.bsSend 0 0 0, rfl⟩, ⟨.ppPress .power, rfl⟩]

/-- A packet with a command's opcode decodes along that command's row (R83, R84 case 2). -/
theorem decode_of_op {p : Packet} {i : Instr} (h : p.op = i.opcode) :
    decode p = .whenZero (i.reservedZero p) (i.readFrom p) := by
  cases i <;> simp only [Instr.opcode] at h <;> simp [decode, h, Instr.reservedZero, Instr.readFrom]

/-- A packet with no command's opcode is refused (R84 case 1). -/
theorem decode_of_unknown_op {p : Packet} (h : ¬ ∃ i : Instr, i.opcode = p.op) :
    decode p = .illegal .unknownOpcode := by
  rw [exists_opcode_eq_iff] at h
  simp only [List.mem_cons, List.not_mem_nil, or_false, not_or] at h
  obtain ⟨hnop, hrd, hclr, hpush, hget, hnec, hbiph, hsend, hpress⟩ := h
  simp [decode, hnop, hrd, hclr, hpush, hget, hnec, hbiph, hsend, hpress]

/-- Exactly when a packet is a given command: opcode, must-be-zero fields and operands are that command's. -/
theorem decode_eq_command_iff {p : Packet} {i : Instr} :
    decode p = .command i ↔ p.op = i.opcode ∧ i.reservedZero p = true ∧ i.readFrom p = i := by
  constructor
  · intro h
    by_cases hknown : ∃ j : Instr, j.opcode = p.op
    · obtain ⟨j, hop⟩ := hknown
      rw [decode_of_op hop.symm, Decoded.whenZero_eq_command] at h
      obtain ⟨hzero, rfl⟩ := h
      exact ⟨by simp [hop], by simpa using hzero, by simp⟩
    · simp [decode_of_unknown_op hknown] at h
  · rintro ⟨hop, hzero, hread⟩
    rw [decode_of_op hop, Decoded.whenZero_eq_command]
    exact ⟨hzero, hread⟩

/-! ### The encoder -/

/-- A byte whose bits from `n` on are zero is its low `n` bits. -/
theorem setWidth_extractLsb'_of_high_zero {n k : Nat} (hnk : n + k = 8) {x : Byte} (h : x.extractLsb' n k = 0) :
    (x.extractLsb' 0 n).setWidth 8 = x := by
  apply BitVec.eq_of_getLsbD_eq
  intro j hj
  by_cases hlow : j < n
  · simp [hj, hlow]
  · have hbit : (x.extractLsb' n k).getLsbD (j - n) = false := by simp [h]
    rw [BitVec.getLsbD_extractLsb', show n + (j - n) = j by omega] at hbit
    simpa [hj, hlow, show j - n < k by omega] using hbit.symm

/-- A byte whose bits from 1 on are zero is its bit 0. -/
theorem setWidth_ofBool_of_high_zero {x : Byte} (h : x.extractLsb' 1 7 = 0) : (BitVec.ofBool x[0]).setWidth 8 = x := by
  have hbit : BitVec.ofBool x[0] = x.extractLsb' 0 1 := by
    apply BitVec.eq_of_getLsbD_eq
    intro j hj
    simp [show j = 0 by omega]
  rw [hbit, setWidth_extractLsb'_of_high_zero rfl h]

@[simp] theorem Button.ofBits_extractLsb'_setWidth (button : Button) :
    Button.ofBits ((button.bits.setWidth 8).extractLsb' 0 2) = button := by
  cases button <;> rfl

@[simp] theorem Button.high_bits_setWidth (button : Button) : (button.bits.setWidth 8).extractLsb' 2 6 = 0#6 := by
  cases button <;> rfl

@[simp] theorem ofBool_high_bits_setWidth (v : Bool) : ((BitVec.ofBool v).setWidth 8).extractLsb' 1 7 = 0#7 := by
  cases v <;> rfl

/-- The opcode of a command's packet is the command's (R80, R83). -/
theorem encode_op (i : Instr) : (encode i).op = i.opcode := by
  cases i <;> exact Packet.op_ofFields ..

/-- A command's packet has zeros in the must-be-zero fields of its row (R83). -/
theorem reservedZero_encode (i : Instr) : i.reservedZero (encode i) = true := by
  cases i <;> simp [encode, Instr.reservedZero]

/-- A command's packet holds its operands (R81). -/
theorem readFrom_encode (i : Instr) : i.readFrom (encode i) = i := by
  cases i with
  | seqGet idx =>
    simp only [encode, Instr.readFrom, Packet.b_ofFields, Packet.c_ofFields]
    rw [BitVec.extractLsb'_append_extractLsb'_eq_extractLsb' (start₁ := 0) (len₁ := 8) rfl,
      BitVec.extractLsb'_eq_self]
  | _ => simp [encode, Instr.readFrom]

/-- Settles O2: the encoder writes opcode, operands and zeros into the fields where the decoder reads them. -/
theorem decodeOfEncode : Obligations.DecodeOfEncode := fun i =>
  decode_eq_command_iff.2 ⟨encode_op i, reservedZero_encode i, readFrom_encode i⟩

/-- A packet with the opcode and the must-be-zero fields of a row is the packet of the command it holds. -/
theorem encode_readFrom {p : Packet} {i : Instr} (hop : p.op = i.opcode) (hzero : i.reservedZero p = true) :
    encode (i.readFrom p) = p := by
  cases i <;> simp only [Instr.opcode, Instr.reservedZero, Bool.and_eq_true, beq_iff_eq,
    Packet.wordsZero_iff] at hop hzero <;> apply Packet.ext_fields <;> simp [encode, Instr.readFrom, *]
  case seqPush.hc =>
    obtain ⟨⟨-, hhigh⟩, -⟩ := hzero
    exact setWidth_ofBool_of_high_zero hhigh
  case seqGet.hb => exact BitVec.extractLsb'_append_eq_left
  case seqGet.hc => exact BitVec.extractLsb'_append_eq_right
  case encBiph.hc | ppPress.hc =>
    obtain ⟨⟨-, hhigh⟩, -⟩ := hzero
    rw [Button.bits_ofBits, setWidth_extractLsb'_of_high_zero rfl hhigh]

/-- Settles O3: opcode, must-be-zero fields and operands are all the fields of a packet. -/
theorem encodeOfDecode : Obligations.EncodeOfDecode := by
  intro p i h
  obtain ⟨hop, hzero, hread⟩ := decode_eq_command_iff.1 h
  rw [← hread]
  exact encode_readFrom hop hzero

/-! ### The opcode table -/

/-- A command's row, field by field: the opcode to match, and a mask with ones in the opcode and in the
must-be-zero fields (R83). -/
def Instr.fieldRow : Instr → OpcodeRow
  | .nop => ⟨.ofFields 0x00 0 0 0 0 0 0, .ofFields 0xFF 0xFF 0xFF 0xFF 0xFFFFFFFF 0xFFFFFFFF 0xFFFFFFFF⟩
  | .rd _ => ⟨.ofFields 0x01 0 0 0 0 0 0, .ofFields 0xFF 0 0xFF 0xFF 0xFFFFFFFF 0xFFFFFFFF 0xFFFFFFFF⟩
  | .seqClr => ⟨.ofFields 0x10 0 0 0 0 0 0, .ofFields 0xFF 0xFF 0xFF 0xFF 0xFFFFFFFF 0xFFFFFFFF 0xFFFFFFFF⟩
  | .seqPush _ => ⟨.ofFields 0x11 0 0 0 0 0 0, .ofFields 0xFF 0xFF 0xFF 0xFE 0xFFFFFFFF 0xFFFFFFFF 0xFFFFFFFF⟩
  | .seqGet _ => ⟨.ofFields 0x12 0 0 0 0 0 0, .ofFields 0xFF 0xFF 0 0 0xFFFFFFFF 0xFFFFFFFF 0xFFFFFFFF⟩
  | .encNec _ _ _ => ⟨.ofFields 0x20 0 0 0 0 0 0, .ofFields 0xFF 0 0 0 0xFFFFFFFF 0xFFFFFFFF 0xFFFFFFFF⟩
  | .encBiph _ => ⟨.ofFields 0x21 0 0 0 0 0 0, .ofFields 0xFF 0xFF 0xFF 0xFC 0xFFFFFFFF 0xFFFFFFFF 0xFFFFFFFF⟩
  | .bsSend _ _ _ => ⟨.ofFields 0x30 0 0 0 0 0 0, .ofFields 0xFF 0xFF 0xFF 0xFF 0 0 0⟩
  | .ppPress _ => ⟨.ofFields 0x40 0 0 0 0 0 0, .ofFields 0xFF 0xFF 0xFF 0xFC 0xFFFFFFFF 0xFFFFFFFF 0xFFFFFFFF⟩

/-- The table's 128-bit numbers are these fields. -/
theorem Instr.row_eq_fieldRow (i : Instr) : i.row = i.fieldRow := by
  cases i <;> simp only [Instr.row, Instr.fieldRow] <;> rfl

@[simp] theorem Instr.row_value_op (i : Instr) : Packet.op i.row.value = i.opcode := by
  rw [Instr.row_eq_fieldRow]
  cases i <;> exact Packet.op_ofFields ..

theorem mem_opcodeRows_iff {r : OpcodeRow} : r ∈ opcodeRows ↔ ∃ i : Instr, i.row = r := by
  constructor
  · intro h
    simp only [opcodeRows, List.mem_cons, List.not_mem_nil, or_false] at h
    rcases h with h | h | h | h | h | h | h | h | h <;> exact ⟨_, h.symm⟩
  · rintro ⟨i, rfl⟩
    cases i <;> simp [opcodeRows, Instr.row]

/-- A masked comparison is one comparison per field. -/
theorem Packet.and_eq_ofFields_iff (p m : Packet) (op a b c : Byte) (d0 d1 d2 : Word) :
    p &&& m = Packet.ofFields op a b c d0 d1 d2 ↔
      p.op &&& m.op = op ∧ p.a &&& m.a = a ∧ p.b &&& m.b = b ∧ p.c &&& m.c = c ∧
        p.d0 &&& m.d0 = d0 ∧ p.d1 &&& m.d1 = d1 ∧ p.d2 &&& m.d2 = d2 := by
  obtain ⟨hop, ha, hb, hc, h0, h1, h2⟩ := Packet.fields_and p m
  rw [← hop, ← ha, ← hb, ← hc, ← h0, ← h1, ← h2]
  constructor
  · intro h
    simp [h]
  · rintro ⟨rfl, rfl, rfl, rfl, rfl, rfl, rfl⟩
    exact (Packet.ofFields_fields _).symm

theorem and_byte_ones (x : Byte) : x &&& 0xFF#8 = x := BitVec.and_allOnes

theorem and_word_ones (x : Word) : x &&& 0xFFFFFFFF#32 = x := BitVec.and_allOnes

theorem and_mask_bit0_eq_zero_iff : ∀ x : Byte, x &&& 0xFE#8 = 0#8 ↔ x.extractLsb' 1 7 = 0#7 := by decide

theorem and_mask_bits1_0_eq_zero_iff : ∀ x : Byte, x &&& 0xFC#8 = 0#8 ↔ x.extractLsb' 2 6 = 0#6 := by decide

/-- A packet selects a row by mask and match exactly where it has the row's opcode and zeros in its must-be-zero
fields (R83). -/
theorem Instr.row_selectedBy_iff {i : Instr} {p : Packet} :
    i.row.selectedBy p = true ↔ p.op = i.opcode ∧ i.reservedZero p = true := by
  rw [Instr.row_eq_fieldRow, OpcodeRow.selectedBy, beq_iff_eq]
  cases i <;> simp [Instr.fieldRow, Packet.and_eq_ofFields_iff, Instr.reservedZero, Instr.opcode, and_byte_ones,
    and_word_ones, and_mask_bit0_eq_zero_iff, and_mask_bits1_0_eq_zero_iff, and_assoc]

/-- A packet that selects a row is the command it holds. -/
theorem decode_of_selectedBy {p : Packet} {i : Instr} (h : i.row.selectedBy p = true) :
    decode p = .command (i.readFrom p) := by
  obtain ⟨hop, hzero⟩ := Instr.row_selectedBy_iff.1 h
  exact decode_eq_command_iff.2 ⟨by simp [hop], by simp [hzero], by simp⟩

/-- Settles O4: both sides say opcode and must-be-zero fields; two selected rows are both that of the one command. -/
theorem decoderFollowsOpcodeTable : Obligations.DecoderFollowsOpcodeTable := by
  have hrow : ∀ (p : Packet) (r : OpcodeRow), r ∈ opcodeRows → r.selectedBy p = true →
      ∃ i, decode p = .command i ∧ i.row = r := by
    intro p r hmem hsel
    obtain ⟨i, rfl⟩ := mem_opcodeRows_iff.1 hmem
    exact ⟨i.readFrom p, decode_of_selectedBy hsel, i.row_readFrom p⟩
  refine ⟨fun p i hdecode => ?_, hrow, fun p r r' hmem hmem' hsel hsel' => ?_⟩
  · obtain ⟨hop, hzero, -⟩ := decode_eq_command_iff.1 hdecode
    exact ⟨mem_opcodeRows_iff.2 ⟨i, rfl⟩, Instr.row_selectedBy_iff.2 ⟨hop, hzero⟩⟩
  · obtain ⟨i, hi, rfl⟩ := hrow p r hmem hsel
    obtain ⟨j, hj, rfl⟩ := hrow p r' hmem' hsel'
    rw [Decoded.command.inj (hi.symm.trans hj)]

/-- Exactly which packets the decoder refuses: cases (1) and (2) of R84. -/
theorem decode_eq_illegal_iff {p : Packet} :
    (∃ why, decode p = .illegal why) ↔
      p.op ∉ [0x00#8, 0x01#8, 0x10#8, 0x11#8, 0x12#8, 0x20#8, 0x21#8, 0x30#8, 0x40#8] ∨
      ∃ r ∈ opcodeRows, p.op = Packet.op r.value ∧ p &&& r.mask ≠ r.value := by
  constructor
  · rintro ⟨why, h⟩
    by_cases hknown : ∃ i : Instr, i.opcode = p.op
    · obtain ⟨i, hop⟩ := hknown
      refine .inr ⟨i.row, mem_opcodeRows_iff.2 ⟨i, rfl⟩, by simp [hop], fun hsel => ?_⟩
      simp [decode_of_selectedBy (i := i) (beq_iff_eq.2 hsel)] at h
    · exact .inl (mt exists_opcode_eq_iff.2 hknown)
  · rintro (hop | ⟨r, hmem, hop, hsel⟩)
    · exact ⟨_, decode_of_unknown_op (mt exists_opcode_eq_iff.1 hop)⟩
    · obtain ⟨i, rfl⟩ := mem_opcodeRows_iff.1 hmem
      have hop : p.op = i.opcode := by simpa using hop
      have hzero : i.reservedZero p = false := by
        refine Bool.eq_false_iff.2 fun hzero => hsel ?_
        exact beq_iff_eq.1 (Instr.row_selectedBy_iff.2 ⟨hop, hzero⟩)
      exact ⟨.reservedNonzero, by rw [decode_of_op hop, hzero]; rfl⟩

/-- Settles O1: each of the sixteen packets is decoded as written. -/
theorem sampleWordsDecode : Obligations.SampleWordsDecode := by
  refine ⟨?_, ?_, ?_, ?_, ?_, ?_, ?_, ?_, ?_, ?_, ?_, ?_, ?_, ?_, ?_, ?_⟩ <;> decide

end Sys2Proof

namespace Sys2Proof.Machine

/-- Settles O37: bit by bit; the mask of 20 bits hides no bit that the shift leaves among the 24. -/
theorem ppPayloadBits : Obligations.PpPayloadBits := by
  intro cfg key hshift j hj
  have hmask : Nat.testBit 0xFFFFF (j - 5) = true := by
    rw [show 0xFFFFF = 2 ^ 20 - 1 by rfl, Nat.testBit_two_pow_sub_one, decide_eq_true_iff]
    omega
  rw [ppPayload, hshift, BitVec.getLsbD_ofNat, Nat.testBit_or, Nat.testBit_shiftLeft, Nat.testBit_and, hmask,
    BitVec.testBit_toNat, BitVec.testBit_toNat]
  simp [hj]

end Sys2Proof.Machine
end

section
/-! PROOFS. The port's answers (R84, R86, R87): what running a packet can do, which packets are answered ILLEGAL, who
takes a packet off the port, and that each accepted packet gets its one response. -/

namespace Sys2Proof.Machine

/-- Everything running a packet can do: the answer to an illegal packet, or the decoded command (R84, R87). -/
theorem runPacket_cases {p : Packet} {s t : State} (h : runPacket p s = .next t) :
    (∃ why, decode p = .illegal why ∧ t = s.plusResponse .illegal 0) ∨
    (∃ i, decode p = .command i ∧ exec i s = .next t) := by
  unfold runPacket at h
  split at h
  · exact .inl ⟨_, ‹_›, (Host.Outcome.next.inj h).symm⟩
  · exact .inr ⟨_, ‹_›, h⟩

/-- The acquisition step answers its command once, OK or HW_ERROR, without data (R122). -/
theorem acquire_responses (sp cp pw : Duration) (s : State) :
    ∃ code : RespCode, (code = .ok ∨ code = .hwError) ∧
      (acquire sp cp pw s).obs.responses = s.obs.responses ++ [⟨code, 0⟩] := by
  rcases acquire_cases sp cp pw s with ⟨-, he⟩ | ⟨-, he⟩ <;> rw [he]
  · exact ⟨.ok, .inl rfl, rfl⟩
  · exact ⟨.hwError, .inr rfl, rfl⟩

/-! ### ILLEGAL (R84) -/

theorem runPacket_of_illegal {p : Packet} {why : Illegal} (h : decode p = .illegal why) (s : State) :
    runPacket p s = .next (s.plusResponse .illegal 0) := by
  simp only [runPacket, h]
  rfl

/-- BS.SEND with slot period zero (R84 case 4). -/
theorem exec_bsSend_zero (cp pw : Duration) (s : State) :
    exec (.bsSend 0 cp pw) s = .next (s.plusResponse .illegal 0) := rfl

/-- SEQ.GET at or above `stg_fill` (R84 case 5). -/
theorem exec_seqGet_of_le {idx : SlotIndex} {s : State} (h : s.stg.fill ≤ idx) :
    exec (.seqGet idx) s = .next (s.plusResponse .illegal 0) :=
  if_neg (BitVec.not_lt.2 h)

/-- A command that ends with a run of Appends is not answered ILLEGAL (R112). -/
theorem Appended.toResult_not_illegal {vs : List Bool} {s t : State} (h : (appendAll vs s).toResult = .next t)
    (data : Word) : t.obs.responses ≠ s.obs.responses ++ [⟨.illegal, data⟩] := by
  obtain ⟨stg, code, hcode, -, -, rfl⟩ := Appended.toResult_next h
  rcases hcode with rfl | rfl <;> simp

/-- A command that is answered ILLEGAL has an operand out of range: cases (3) to (5) of R84. -/
theorem operand_out_of_range_of_illegal {i : Instr} {s t : State} {data : Word} (h : exec i s = .next t)
    (hillegal : t.obs.responses = s.obs.responses ++ [⟨.illegal, data⟩]) :
    (∃ reg, i = .rd reg ∧ 0x0B < reg) ∨ (∃ cp pw, i = .bsSend 0 cp pw) ∨
    ∃ idx, i = .seqGet idx ∧ s.stg.fill ≤ idx := by
  cases i with
  | nop =>
    obtain rfl := Host.Outcome.next.inj h
    simp at hillegal
  | rd reg =>
    refine .inl ⟨reg, rfl, BitVec.not_le.1 fun hle => ?_⟩
    obtain ⟨w, hw⟩ := s.statusWindow_of_le hle
    obtain rfl := Host.Outcome.next.inj ((exec_rd_of_window hw).symm.trans h)
    simp at hillegal
  | seqClr =>
    obtain rfl := Host.Outcome.next.inj h
    simp at hillegal
  | seqPush v =>
    have hrun : exec (.seqPush v) s = (appendAll [v] s).toResult := by
      simp only [exec, execSeqPush, appendAll]
      cases append v s <;> rfl
    exact absurd hillegal (Appended.toResult_not_illegal (hrun.symm.trans h) data)
  | seqGet idx =>
    refine .inr (.inr ⟨idx, rfl, BitVec.not_lt.1 fun hlt => ?_⟩)
    simp only [exec, execSeqGet, if_pos hlt] at h
    split at h <;> simp only [Host.Outcome.next.injEq, reduceCtorEq] at h
    subst h
    simp at hillegal
  | encNec al ah cmd => exact absurd hillegal (Appended.toResult_not_illegal h data)
  | encBiph button =>
    cases button with
    | power => exact absurd hillegal (Appended.toResult_not_illegal h data)
    | up | down | cancel =>
      obtain rfl := Host.Outcome.next.inj h
      simp at hillegal
  | bsSend sp cp pw =>
    by_cases hsp : sp = 0
    · exact .inr (.inl ⟨cp, pw, hsp ▸ rfl⟩)
    simp only [exec, execBsSend, if_neg hsp] at h
    split at h
    · obtain rfl := Host.Outcome.next.inj h
      obtain ⟨code, hcode, hone⟩ := acquire_responses sp cp pw s
      rw [hone] at hillegal
      rcases hcode with rfl | rfl <;> simp at hillegal
    · split at h <;> obtain rfl := Host.Outcome.next.inj h <;> simp at hillegal
  | ppPress button =>
    simp only [exec, execPpPress] at h
    split at h
    · obtain rfl := Host.Outcome.next.inj h
      simp at hillegal
    · split at h <;> obtain rfl := Host.Outcome.next.inj h <;> simp at hillegal

/-- Settles O5: the decoder refuses cases (1) and (2), the command's meaning (3) to (5), and no other answer is
ILLEGAL. -/
theorem illegalPacketsAnsweredOnly : Obligations.IllegalPacketsAnsweredOnly := by
  refine ⟨fun p s hill => ?_, fun p s t data hlegal hrun hillegal => hlegal ?_⟩
  · rcases hill with hop | hrow | ⟨reg, hdecode, hlt⟩ | ⟨cp, pw, hdecode⟩ | ⟨idx, hdecode, hle⟩
    · obtain ⟨_, hdecode⟩ := decode_eq_illegal_iff.2 (.inl hop)
      exact runPacket_of_illegal hdecode s
    · obtain ⟨_, hdecode⟩ := decode_eq_illegal_iff.2 (.inr hrow)
      exact runPacket_of_illegal hdecode s
    · rw [runPacket_of_command hdecode, exec_rd_outside (s.statusWindow_of_gt hlt)]
    · rw [runPacket_of_command hdecode, exec_bsSend_zero]
    · rw [runPacket_of_command hdecode, exec_seqGet_of_le hle]
  · rcases runPacket_cases hrun with ⟨why, hdecode, -⟩ | ⟨i, hdecode, hexec⟩
    · rcases decode_eq_illegal_iff.1 ⟨why, hdecode⟩ with hop | hrow
      · exact .inl hop
      · exact .inr (.inl hrow)
    · rcases operand_out_of_range_of_illegal hexec hillegal with ⟨reg, rfl, hlt⟩ | ⟨cp, pw, rfl⟩ | ⟨idx, rfl, hle⟩
      · exact .inr (.inr (.inl ⟨reg, hdecode, hlt⟩))
      · exact .inr (.inr (.inr (.inl ⟨cp, pw, hdecode⟩)))
      · exact .inr (.inr (.inr (.inr ⟨idx, hdecode, hle⟩)))

/-! ### The port (R87) -/

/-- No command takes anything off the port. -/
theorem exec_port {i : Instr} {s t : State} (h : exec i s = .next t) : t.env.port = s.env.port := by
  rcases exec_cases h with ⟨_, _, rfl, -⟩ | ⟨_, _, -, -, rfl, -⟩ | ⟨_, _, -, -, rfl, -⟩ |
    ⟨_, _, _, -, -, -, rfl⟩ | ⟨_, _, _, -, -, -, -, rfl⟩ | ⟨_, _, -, -, -, rfl⟩ <;> simp [acquire_eq]

/-- Running a packet takes nothing further off the port. -/
theorem runPacket_port {p : Packet} {s t : State} (h : runPacket p s = .next t) : t.env.port = s.env.port := by
  rcases runPacket_cases h with ⟨_, -, rfl⟩ | ⟨i, -, hexec⟩
  · rfl
  · exact exec_port hexec

/-- Of the steps only HOST takes a packet off the port. -/
theorem takeMove_port {m : Move} {s t : State} (hm : m ≠ .host) (h : takeMove m s = .next t) :
    t.env.port = s.env.port := by
  rcases takeMove_cases h with ⟨-, rfl⟩ | ⟨-, hdo⟩
  · rfl
  cases m with
  | host => exact absurd rfl hm
  | bsTick =>
    obtain rfl := Host.Outcome.next.inj hdo
    rw [bsTick_eq]
  | bsWork =>
    obtain ⟨_, ht⟩ := bsWork_frame hdo
    rw [ht]
    simp
  | bsGrant =>
    obtain rfl := Host.Outcome.next.inj hdo
    simp [bsGrant, acquire_eq]
  | bsTimeout =>
    obtain rfl := Host.Outcome.next.inj hdo
    simp [bsTimeout]
  | ppTick =>
    obtain ⟨_, ht⟩ := ppTick_frame hdo
    rw [ht]
    simp
  | reset =>
    obtain rfl := Host.Outcome.next.inj hdo
    rfl

/-- While a BS.SEND waits the HOST step is not enabled, and so does nothing (R87, log 9). -/
theorem takeMove_host_of_wait {s : State} (h : s.bs.wait = true) : takeMove .host s = .next s := by
  simp [takeMove, enabled, h]

/-- Settles O7: HOST runs the oldest packet where nothing waits, and nothing else reaches the port. -/
theorem portAcceptsOneCommandAtATime : Obligations.PortAcceptsOneCommandAtATime :=
  ⟨fun _ => takeMove_host_of_wait, fun _ _ _ => takeMove_host_of_port, fun _ _ _ => takeMove_port,
    fun _ _ _ => runPacket_port⟩

/-! ### One response for each packet (R86) -/

/-- The acquisition step neither starts nor ends a wait (R122). -/
theorem acquire_wait (sp cp pw : Duration) (s : State) : (acquire sp cp pw s).bs.wait = s.bs.wait := by
  rcases acquire_cases sp cp pw s with ⟨-, he⟩ | ⟨-, he⟩ <;> rw [he]
  rfl

/-- A command is answered once and starts no wait, with data only for RD and SEQ.GET answered OK; or it is a
BS.SEND, is not answered, and waits. -/
theorem exec_response {i : Instr} {s t : State} (h : exec i s = .next t) :
    (∃ r : Response, t.obs.responses = s.obs.responses ++ [r] ∧ t.bs.wait = s.bs.wait ∧
      (r.data ≠ 0 → r.code = .ok ∧ ((∃ reg, i = .rd reg) ∨ ∃ idx, i = .seqGet idx))) ∨
    (t.obs.responses = s.obs.responses ∧ t.bs.wait = true ∧ ∃ sp cp pw, i = .bsSend sp cp pw) := by
  rcases exec_cases h with ⟨code, data, rfl, hdata⟩ | ⟨_, code, -, -, rfl, -⟩ | ⟨_, code, -, -, rfl, -⟩ |
    ⟨sp, cp, pw, -, -, -, rfl⟩ | ⟨sp, cp, pw, hi, -, -, -, rfl⟩ | ⟨_, _, -, -, -, rfl⟩
  · exact .inl ⟨⟨code, data⟩, rfl, rfl, hdata⟩
  · exact .inl ⟨⟨code, 0⟩, rfl, rfl, fun hne => absurd rfl hne⟩
  · exact .inl ⟨⟨code, 0⟩, rfl, rfl, fun hne => absurd rfl hne⟩
  · obtain ⟨code, -, hcode⟩ := acquire_responses sp cp pw s
    exact .inl ⟨⟨code, 0⟩, hcode, acquire_wait sp cp pw s, fun hne => absurd rfl hne⟩
  · exact .inr ⟨rfl, rfl, sp, cp, pw, hi⟩
  · exact .inl ⟨⟨.ok, 0⟩, rfl, rfl, fun hne => absurd rfl hne⟩

/-- BS_GRANT and BS_TIMEOUT answer the waiting BS.SEND and end its wait (R124, R125). -/
theorem waiter_response {m : Move} {s t : State} (hm : m = .bsGrant ∨ m = .bsTimeout) (hen : enabled m s = true)
    (h : takeMove m s = .next t) :
    ∃ code : RespCode, t.obs.responses = s.obs.responses ++ [⟨code, 0⟩] ∧ t.bs.wait = false := by
  rw [takeMove_of_enabled hen] at h
  rcases hm with rfl | rfl <;> obtain rfl := Host.Outcome.next.inj h
  · obtain ⟨code, -, hcode⟩ := acquire_responses s.bs.waitSp s.bs.waitCp s.bs.waitPw s.endWait
    exact ⟨code, hcode, acquire_wait ..⟩
  · exact ⟨.busy, rfl, rfl⟩

/-- The steps of the timers and of the worker answer nothing. -/
theorem timer_responses {m : Move} {s t : State} (hm : m = .bsTick ∨ m = .bsWork ∨ m = .ppTick)
    (h : takeMove m s = .next t) : t.obs.responses = s.obs.responses := by
  rcases takeMove_cases h with ⟨-, rfl⟩ | ⟨-, hdo⟩
  · rfl
  rcases hm with rfl | rfl | rfl
  · obtain rfl := Host.Outcome.next.inj hdo
    rw [bsTick_eq]
  · obtain ⟨_, ht⟩ := bsWork_frame hdo
    rw [ht]
  · obtain ⟨_, ht⟩ := ppTick_frame hdo
    rw [ht]

/-- Settles O8: one response from the port or, for a BS.SEND that waits, from the step that ends the wait. -/
theorem everyCommandAnsweredOnce : Obligations.EveryCommandAnsweredOnce := by
  refine ⟨fun p s t hrun => ?_, fun _ _ _ => waiter_response, fun _ _ _ => timer_responses, rfl, rfl, rfl, rfl, rfl,
    rfl⟩
  rcases runPacket_cases hrun with ⟨_, -, rfl⟩ | ⟨i, hdecode, hexec⟩
  · exact .inl ⟨⟨.illegal, 0⟩, rfl, rfl, fun hne => absurd rfl hne⟩
  · simpa only [hdecode, Decoded.command.injEq] using exec_response hexec

end Sys2Proof.Machine
end

section
/-! PROOFS. The Slot Sequence commands (R111 to R114): what each answers below and at the bound it checks. -/

namespace Sys2Proof.Machine

/-! ### One Append (R112) -/

theorem append_of_lt {s : State} (v : Bool) (h : s.stg.fill < s.cfg.cap) :
    append v s =
      .done { s with stg := { cells := writeSlot s.stg.cells s.stg.fill v, fill := s.stg.fill + 1 } } := by
  rw [append, if_neg (BitVec.ne_of_lt h), if_pos h]

theorem append_of_full {s : State} (v : Bool) (h : s.stg.fill = s.cfg.cap) : append v s = .overflow s :=
  if_pos h

/-! ### Commands -/

theorem exec_seqClr (s : State) : exec .seqClr s = .next (s.clearStaging.plusResponse .ok 0) := rfl

theorem exec_seqPush (v : Bool) (s : State) : exec (.seqPush v) s = (append v s).toResult := rfl

theorem exec_seqPush_of_lt {s : State} (v : Bool) (h : s.stg.fill < s.cfg.cap) :
    exec (.seqPush v) s =
      .next (State.plusResponse
        { s with stg := { cells := writeSlot s.stg.cells s.stg.fill v, fill := s.stg.fill + 1 } } .ok 0) := by
  rw [exec_seqPush, append_of_lt v h]
  rfl

theorem exec_seqPush_of_full {s : State} (v : Bool) (h : s.stg.fill = s.cfg.cap) :
    exec (.seqPush v) s = .next (s.plusResponse .bufferOverflow 0) := by
  rw [exec_seqPush, append_of_full v h]
  rfl

theorem exec_seqGet_of_slot {idx : SlotIndex} {s : State} {v : Bool} (hlt : idx < s.stg.fill)
    (hslot : readSlot s.stg.cells idx = some v) :
    exec (.seqGet idx) s = .next (s.plusResponse .ok (if v then 1 else 0)) := by
  simp only [exec, execSeqGet, if_pos hlt, hslot]
  cases v <;> rfl

/-- Settles O12: emptying the staging sequence keeps its cells. -/
theorem seqClrEmptiesSequence : Obligations.SeqClrEmptiesSequence :=
  ⟨by decide, exec_seqClr⟩

/-- Settles O13: below `CAP` the slot at `stg_fill` is a cell of the buffer and `stg_fill` does not wrap. -/
theorem seqPushAppendsSlot : Obligations.SeqPushAppendsSlot := by
  refine ⟨by decide, by decide, fun v s hwf hlt => ?_, fun v s => exec_seqPush_of_full v⟩
  have hcell : s.stg.fill.toNat < s.stg.cells.length := by
    rw [Memory.wf_iff.1 hwf]
    exact hlt
  exact ⟨_, exec_seqPush_of_lt v hlt, Memory.wf_writeSlot _ v hwf, toNat_succ_of_lt hlt,
    readSlot_writeSlot_same v hcell, fun _ => readSlot_writeSlot_other v⟩

/-- Settles O14: below `stg_fill`, and so below `CAP`, every index reads a slot. -/
theorem seqGetReadsStagedSlot : Obligations.SeqGetReadsStagedSlot := by
  refine ⟨by decide, fun idx s hwf hfill hlt => ?_, fun idx s => exec_seqGet_of_le⟩
  obtain ⟨v, hslot⟩ := readSlot_isSome hwf (Nat.lt_of_lt_of_le hlt hfill)
  exact ⟨v, hslot, exec_seqGet_of_slot hlt hslot⟩

end Sys2Proof.Machine
end

section
/-! PROOFS. The Burst Sequencer step by step (R121 to R130): BS.SEND by its four branches, the wait and its two ends,
the tick, and the two branches of the work unit. -/

namespace Sys2Proof.Machine

/-! ### The acquisition step (R122) -/

section
variable {sp cp pw : Duration} {s : State}

theorem acquire_of_ok (h : s.chanAnswer = .ok) :
    acquire sp cp pw s = State.plusResponse
      { s with
        bs := s.acquired sp pw
        ch := { period := cp, pulse := 0 }
        obs := { s.obs with chanTrace := s.obs.chanTrace ++ [(.cfg cp, .ok)] }
        env := s.env.afterChan } .ok 0 := by
  rw [acquire_eq, h]
  rfl

theorem acquire_of_err (h : s.chanAnswer = .err) :
    acquire sp cp pw s = State.plusResponse
      { s with
        obs := { s.obs with chanTrace := s.obs.chanTrace ++ [(.cfg cp, .err)] }
        env := s.env.afterChan } .hwError 0 := by
  rw [acquire_eq, h]
  rfl

/-! ### BS.SEND (R121) -/

theorem exec_bsSend_of_free (hsp : sp ≠ 0) (hfree : s.bs.token = false) :
    exec (.bsSend sp cp pw) s = .next (acquire sp cp pw s) := by
  simp only [exec, execBsSend, if_neg hsp, if_pos hfree]

theorem exec_bsSend_of_busy (hsp : sp ≠ 0) (hheld : s.bs.token = true) (hnowait : s.cfg.tokenWait = 0) :
    exec (.bsSend sp cp pw) s = .next (s.fail .busy) := by
  simp only [exec, execBsSend, if_neg hsp, hheld, Bool.true_eq_false, if_false, if_pos hnowait]

theorem exec_bsSend_of_waits (hsp : sp ≠ 0) (hheld : s.bs.token = true) (hwait : s.cfg.tokenWait ≠ 0) :
    exec (.bsSend sp cp pw) s = .next (s.startWait sp cp pw) := by
  simp only [exec, execBsSend, if_neg hsp, hheld, Bool.true_eq_false, if_false, if_neg hwait]

end

/-- Settles O25: with the token free BS.SEND is the acquisition step. -/
theorem bsSendAcquiresToken : Obligations.BsSendAcquiresToken := by
  intro sp cp pw s hsp hfree
  exact ⟨_, exec_bsSend_of_free hsp hfree, acquire_of_ok, acquire_of_err⟩

/-- Settles O26: the three branches of BS.SEND that issue no channel operation. -/
theorem bsSendBusyOrWaits : Obligations.BsSendBusyOrWaits :=
  ⟨exec_bsSend_zero, fun _ _ _ _ => exec_bsSend_of_busy, fun _ _ _ _ => exec_bsSend_of_waits⟩

/-! ### The wait (R123 to R125) -/

/-- Settles O27: BS_TIMEOUT answers the waiting request, BS_GRANT is its acquisition step. -/
theorem waitingRequestGrantedOrTimedOut : Obligations.WaitingRequestGrantedOrTimedOut := by
  refine ⟨fun _ => rfl, fun _ => rfl, fun s hwait => takeMove_of_enabled hwait, fun s hwait hfree => ?_⟩
  have hen : enabled .bsGrant s = true := by simp [enabled, hwait, hfree]
  exact ⟨bsGrant s, takeMove_of_enabled hen, fun hok => acquire_of_ok (s := s.endWait) hok,
    fun herr => acquire_of_err (s := s.endWait) herr⟩

/-- A step other than RESET, taken while a request waits, accepts no packet, and either ends the wait, as BS_GRANT or
BS_TIMEOUT, or keeps the request (R123). -/
theorem takeMove_of_wait {m : Move} {s t : State} (h : takeMove m s = .next t) (hm : m ≠ .reset)
    (hwait : s.bs.wait = true) :
    t.obs.accepted = s.obs.accepted ∧
      ((t.bs.wait = false ∧ (m = .bsGrant ∨ m = .bsTimeout)) ∨
       (t.bs.wait = true ∧
        t.bs.waitSp = s.bs.waitSp ∧ t.bs.waitCp = s.bs.waitCp ∧ t.bs.waitPw = s.bs.waitPw)) := by
  rcases takeMove_cases h with ⟨-, rfl⟩ | ⟨hen, hdo⟩
  · simp [hwait]
  cases m with
  | host => simp [enabled, hwait] at hen
  | bsTick =>
    obtain rfl := Host.Outcome.next.inj hdo
    simp [bsTick_eq, hwait]
  | bsWork =>
    rcases bsWork_cases hdo with ⟨v, -, -, rfl⟩ | ⟨-, rfl⟩
    · simp [slotStep_eq, hwait]
    · simp [endStep_eq, hwait]
  | bsGrant =>
    obtain rfl := Host.Outcome.next.inj hdo
    exact ⟨by simp [bsGrant, acquire_eq], .inl ⟨acquire_wait .., .inl rfl⟩⟩
  | bsTimeout =>
    obtain rfl := Host.Outcome.next.inj hdo
    simp [bsTimeout]
  | ppTick =>
    obtain ⟨_, ht⟩ := ppTick_frame hdo
    rw [ht]
    simp [hwait]
  | reset => exact absurd rfl hm

/-- Settles O28: the port is shut, only an accepted command writes the staging sequence, and only the waiter's two
steps write the wait registers. -/
theorem waitEndedOnlyByWaiter : Obligations.WaitEndedOnlyByWaiter := by
  intro s t hwait hstep hm
  obtain ⟨haccepted, hends⟩ := takeMove_of_wait hstep hm (by simpa using hwait)
  have hinputs : t.stg = s.stg ∧ t.env.port = s.env.port := by
    by_cases hhost : s.nextMove = .host
    · rw [step, hhost, takeMove_host_of_wait (by simpa using hwait)] at hstep
      obtain rfl := Host.Outcome.next.inj hstep
      simp
    · exact ⟨by simpa using (takeMove_staging hstep hm hhost).1, by simpa using takeMove_port hhost hstep⟩
  refine ⟨hinputs.1, by simpa using haccepted, hinputs.2, fun hended => ?_, fun hlasts => ?_⟩
  · rcases hends with ⟨-, hby⟩ | ⟨hlasts, -⟩
    · exact hby
    · simp [hended] at hlasts
  · rcases hends with ⟨hended, -⟩ | ⟨-, hsame⟩
    · simp [hended] at hlasts
    · simpa using hsame

/-! ### BS_TICK (R126) -/

theorem takeMove_bsTick {s : State} (hrun : s.bs.run = true) : takeMove .bsTick s = .next (bsTick s) :=
  takeMove_of_enabled hrun

theorem bsTick_of_not_pending {s : State} (hpend : s.bs.pend = false) :
    bsTick s = { s with bs := { s.bs with pend := true } } :=
  if_pos hpend

theorem bsTick_of_pending {s : State} (hpend : s.bs.pend = true) :
    bsTick s = { s with errlog := { s.errlog with bsOverrun := true } } :=
  if_neg (by simp [hpend])

/-- Settles O29: the tick of the running timer, with and without work pending. -/
theorem bsTickMarksWorkPending : Obligations.BsTickMarksWorkPending := by
  refine ⟨fun _ => rfl, fun s hrun hpend => ?_, fun s hrun hpend => ?_⟩
  · rw [takeMove_bsTick hrun, bsTick_of_not_pending hpend]
  · rw [takeMove_bsTick hrun, bsTick_of_pending hpend]

/-! ### BS_WORK (R127 to R130) -/

theorem takeMove_bsWork {s : State} (hpend : s.bs.pend = true) : takeMove .bsWork s = bsWork s :=
  takeMove_of_enabled hpend

/-- Where the cursor lies below `bs_len` and names a cell, the work unit is the slot step (R128). -/
theorem bsWork_of_slot {s : State} {v : Bool} (hlt : s.bs.cursor < s.bs.len)
    (hslot : readSlot s.bs.act s.bs.cursor = some v) : bsWork s = .next (slotStep v s.clearPend) := by
  simp only [bsWork, if_pos hlt, hslot]

/-- At or beyond `bs_len` the work unit is the end step (R129). -/
theorem bsWork_of_end {s : State} (hle : s.bs.len ≤ s.bs.cursor) : bsWork s = .next (endStep s.clearPend) :=
  if_neg (BitVec.not_lt.2 hle)

/-- Settles O30: the pending slot step, for either answer of the channel. -/
theorem bsWorkPutsOutSlot : Obligations.BsWorkPutsOutSlot := by
  intro s v hpend hlt hslot
  refine ⟨slotStep v s.clearPend, (takeMove_bsWork hpend).trans (bsWork_of_slot hlt hslot), fun hok => ?_,
    fun herr => ?_⟩
  · simp [slotStep_eq, hok]
  · simp [slotStep_eq, herr]

/-- Settles O31: the pending end step, for either answer of the channel. -/
theorem bsWorkEndsTransmission : Obligations.BsWorkEndsTransmission := by
  intro s hpend hle
  refine ⟨endStep s.clearPend, (takeMove_bsWork hpend).trans (bsWork_of_end hle), fun hok => ?_, fun herr => ?_⟩
  · simp [endStep_eq, hok]
  · simp [endStep_eq, herr]

end Sys2Proof.Machine
end

section
/-! PROOFS. Runs of chosen steps, and the shape of a transmission (R132): the invariant of a burst of which `n` slots
have been put out, kept by each pair of a tick and a work unit. -/

namespace Sys2Proof.Machine

/-! ### Runs of chosen steps -/

/-- `k` steps of the machine. -/
def runFor (k : Nat) (s : State) : Result := Host.Core.run core k s

/-- Chosen steps are run by as many steps of the machine, with the choice put before the schedule. -/
theorem runMoves_eq_runFor (ms : List Move) (s : State) :
    runMoves ms s = runFor ms.length { s with env := { s.env with sched := ms ++ s.env.sched } } := rfl

/-- A run goes on from where its first part ends. -/
theorem runFor_add {a b : Nat} {s t : State} (h : runFor a s = .next t) : runFor (a + b) s = runFor b t := by
  induction a generalizing s with
  | zero =>
    obtain rfl := Host.Outcome.next.inj h
    rw [Nat.zero_add]
  | succ a ih =>
    rw [Nat.add_right_comm]
    simp only [runFor, Host.Core.run] at h ⊢
    split at h
    · exact ih h
    · cases h
    · cases h

/-- One step of a run is the step that the schedule names. -/
theorem runFor_one_of_sched {m : Move} {rest : List Move} {s : State} (h : s.env.sched = m :: rest) :
    runFor 1 s = takeMove m { s with env := { s.env with sched := rest } } := by
  rw [← step_of_sched h]
  simp only [runFor, Host.Core.run]
  split <;> exact Eq.symm ‹_›

@[simp] theorem tickWorkPairs_length (n : Nat) : (tickWorkPairs n).length = 2 * n := by
  induction n with
  | zero => rfl
  | succ n ih => simp only [tickWorkPairs, List.length_cons, ih]; omega

/-- The last pair of an alternation, split off at its end. -/
theorem tickWorkPairs_succ (n : Nat) : tickWorkPairs (n + 1) = tickWorkPairs n ++ [.bsTick, .bsWork] := by
  induction n with
  | zero => rfl
  | succ n ih => exact congrArg (Move.bsTick :: Move.bsWork :: ·) ih

/-- A tick of the running timer with no work pending, then the work unit, which finds it pending (R126, R127). -/
theorem runFor_tickWork {s : State} {rest : List Move} (hrun : s.bs.run = true) (hpend : s.bs.pend = false)
    (hsched : s.env.sched = .bsTick :: .bsWork :: rest) :
    runFor 2 s =
      bsWork { s with bs := { s.bs with pend := true }, env := { s.env with sched := rest } } := by
  let ticked : State :=
    { s with bs := { s.bs with pend := true }, env := { s.env with sched := .bsWork :: rest } }
  have htick : runFor 1 s = .next ticked :=
    by
    rw [runFor_one_of_sched hsched, takeMove_bsTick (by exact hrun), bsTick_of_not_pending (by exact hpend)]
  calc runFor (1 + 1) s
    _ = runFor 1 ticked := runFor_add htick
    _ = takeMove .bsWork _ := runFor_one_of_sched (s := ticked) rfl
    _ = bsWork _ := takeMove_bsWork rfl

/-! ### The staged sequence -/

/-- The staged sequence has `stg_fill` slots. -/
theorem State.staged_length {s : State} (hwf : Memory.wf s.cfg.cap s.stg.cells = true)
    (hfill : s.stg.fill ≤ s.cfg.cap) :
    s.staged.length = s.stg.fill.toNat := by
  rw [State.staged, List.length_take, Memory.wf_iff.1 hwf]
  exact Nat.min_eq_left hfill

/-- A slot number up to a slot index does not wrap (R25). -/
theorem toNat_ofNat_of_le {n : Nat} {len : SlotIndex} (h : n ≤ len.toNat) : (BitVec.ofNat 16 n).toNat = n :=
  (BitVec.toNat_ofNat n 16).trans (Nat.mod_eq_of_lt (Nat.lt_of_le_of_lt h len.isLt))

/-! ### A transmission in flight -/

/-- The block at slot `n` of the transmission that BS.SEND `sp`, `cp`, `pw` has begun in state `s` (R122, R132): the
channel operations `ops` are out, with their answers, `w` is the pulse width last accepted, and `env` what is left
of the inputs. -/
def State.sending (sp cp pw : Duration) (s : State) (n : Nat) (ops : List (ChanOp × Answer)) (w : Duration)
    (env : Environment) : State :=
  { s with
    bs := { s.acquired sp pw with cursor := BitVec.ofNat 16 n }
    ch := { period := cp, pulse := w }
    errlog := { s.errlog with bsTickErr := s.errlog.bsTickErr || ops.any fun o => decide (o.2 = .err) }
    obs :=
      { s.obs with chanTrace := s.obs.chanTrace ++ ops, responses := s.obs.responses ++ [⟨.ok, 0⟩] }
    env := env }

/-- The operations `ops` are those of a transmission that has put out the slots `seq`, and `w` is a pulse width that it
may have left (R132, R39 (8)). -/
structure SlotsOut (cp pw : Duration) (seq : List Bool) (ops : List (ChanOp × Answer)) (w : Duration) : Prop where
  ops : ops.map Prod.fst = .cfg cp :: seq.map fun v => .pulse (slotPulse pw v)
  width : w = 0 ∨ w = pw

theorem slotPulse_cases (pw : Duration) (v : Bool) : slotPulse pw v = 0 ∨ slotPulse pw v = pw := by
  cases v
  · exact .inl rfl
  · exact .inr rfl

/-- One more slot is out, whatever the channel answers. -/
theorem SlotsOut.snoc {cp pw w : Duration} {seq : List Bool} {ops : List (ChanOp × Answer)}
    (h : SlotsOut cp pw seq ops w) (v : Bool) (a : Answer) :
    SlotsOut cp pw (seq ++ [v]) (ops ++ [(.pulse (slotPulse pw v), a)])
      (if a = .ok then slotPulse pw v else w) where
  ops := by simp [h.ops]
  width := by
    split
    · exact slotPulse_cases pw v
    · exact h.width

/-- BS.SEND that the channel accepts begins the transmission at slot 0 (R122). -/
theorem acquire_eq_sending {s : State} (sp cp pw : Duration) (hok : s.chanAnswer = .ok) :
    acquire sp cp pw s = s.sending sp cp pw 0 [(.cfg cp, .ok)] 0 s.env.afterChan := by
  simp [acquire_of_ok hok, State.sending, State.plusResponse, State.acquired]

section
variable {s : State} {env : Environment} {rest : List Move} (sp cp pw w : Duration) (ops : List (ChanOp × Answer))

/-- A pair below the end puts out the staged slot at `n` and moves to `n + 1`. -/
theorem runFor_tickWork_slot {n : Nat} {v : Bool} (hn : n < s.stg.fill.toNat) (hslot : s.staged[n]? = some v)
    (hsched : env.sched = .bsTick :: .bsWork :: rest) :
    ∃ (a : Answer) (env' : Environment), env'.sched = rest ∧
      runFor 2 (s.sending sp cp pw n ops w env) =
        .next (s.sending sp cp pw (n + 1) (ops ++ [(.pulse (slotPulse pw v), a)])
          (if a = .ok then slotPulse pw v else w) env') := by
  have hcursor := toNat_ofNat_of_le hn.le
  have hread : readSlot s.stg.cells (BitVec.ofNat 16 n) = some v := by
    rw [readSlot, hcursor, ← hslot, State.staged, List.getElem?_take_of_lt hn]
  have hlt : BitVec.ofNat 16 n < s.stg.fill := by rwa [BitVec.lt_def, hcursor]
  let begun := s.sending sp cp pw n ops w { env with sched := rest }
  refine ⟨begun.chanAnswer, begun.env.afterChan, by simp [begun, State.sending], ?_⟩
  calc runFor 2 (s.sending sp cp pw n ops w env)
    _ = bsWork _ := runFor_tickWork rfl rfl hsched
    _ = .next (slotStep v begun) := bsWork_of_slot hlt hread
    _ = _ := by simp [slotStep_eq, begun, State.sending, State.acquired, BitVec.ofNat_add, Bool.or_assoc]

/-- The pair after the last slot ends the transmission (R129). -/
theorem runFor_tickWork_end (hsched : env.sched = .bsTick :: .bsWork :: rest) :
    ∃ a : Answer,
      runFor 2 (s.sending sp cp pw s.stg.fill.toNat ops w env) =
        .next
          { s.sending sp cp pw s.stg.fill.toNat (ops ++ [(.pulse 0, a)]) (if a = .ok then 0 else w)
              { env with sched := rest }.afterChan with
            bs := { s.acquired sp pw with cursor := s.stg.fill, run := false, token := false } } := by
  let last := s.sending sp cp pw s.stg.fill.toNat ops w { env with sched := rest }
  have hle : last.bs.len ≤ last.bs.cursor := by simp [last, State.sending, State.acquired]
  refine ⟨last.chanAnswer, ?_⟩
  calc runFor 2 (s.sending sp cp pw s.stg.fill.toNat ops w env)
    _ = bsWork _ := runFor_tickWork rfl rfl hsched
    _ = .next (endStep last) := bsWork_of_end hle
    _ = _ := by simp [endStep_eq, last, State.sending, State.acquired, Bool.or_assoc]

end

/-- After `n` pairs the first `n` staged slots are out, in order, each with one `ChanPulse` (R132). -/
theorem runFor_tickWorkPairs (sp cp pw : Duration) {s : State} (hwf : Memory.wf s.cfg.cap s.stg.cells = true)
    (hfill : s.stg.fill ≤ s.cfg.cap) {n : Nat} (hn : n ≤ s.stg.fill.toNat) (env : Environment) (rest : List Move) :
    ∃ (ops : List (ChanOp × Answer)) (w : Duration) (env' : Environment), env'.sched = rest ∧
      SlotsOut cp pw (s.staged.take n) ops w ∧
      runFor (2 * n)
          (s.sending sp cp pw 0 [(.cfg cp, .ok)] 0 { env with sched := tickWorkPairs n ++ rest }) =
        .next (s.sending sp cp pw n ops w env') := by
  induction n generalizing rest with
  | zero => exact ⟨_, 0, { env with sched := rest }, rfl, ⟨rfl, .inl rfl⟩, rfl⟩
  | succ n ih =>
    have hlt : n < s.staged.length := by rwa [State.staged_length hwf hfill]
    have hslot : s.staged[n]? = some s.staged[n] := List.getElem?_eq_getElem hlt
    obtain ⟨ops, w, env₁, hsched₁, hout, hrun₁⟩ := ih (Nat.le_of_succ_le hn) (.bsTick :: .bsWork :: rest)
    obtain ⟨a, env₂, hsched₂, hrun₂⟩ := runFor_tickWork_slot sp cp pw w ops hn hslot hsched₁
    rw [tickWorkPairs_succ, List.append_assoc, List.take_add_one, hslot]
    exact ⟨_, _, env₂, hsched₂, hout.snoc _ a, (runFor_add hrun₁).trans hrun₂⟩

/-- Settles O32: the acquisition begins the transmission, `n` pairs put out `n` slots, and the pair after the last slot
ends it. -/
theorem transmissionShape : Obligations.TransmissionShape := by
  intro sp cp pw s u hwf hfill hsp hfree hok hsend
  obtain rfl := Host.Outcome.next.inj ((exec_bsSend_of_free hsp hfree).symm.trans hsend)
  rw [acquire_eq_sending sp cp pw hok]
  let env := s.env.afterChan
  refine ⟨fun n hn => ?_, ?_⟩
  · obtain ⟨ops, w, env', -, hout, hrun⟩ := runFor_tickWorkPairs sp cp pw hwf hfill hn env env.sched
    rw [runMoves_eq_runFor, tickWorkPairs_length]
    exact ⟨_, hrun, rfl, toNat_ofNat_of_le hn, by simp [State.sending, hout.ops]⟩
  · obtain ⟨ops, w, env', hsched, hout, hrun⟩ :=
      runFor_tickWorkPairs sp cp pw hwf hfill le_rfl env (.bsTick :: .bsWork :: env.sched)
    obtain ⟨a, hend⟩ := runFor_tickWork_end sp cp pw w ops hsched
    rw [← State.staged_length hwf hfill, List.take_length] at hout
    rw [runMoves_eq_runFor, tickWorkPairs_length, tickWorkPairs_succ, List.append_assoc]
    refine ⟨_, ops ++ [(.pulse 0, a)], (runFor_add hrun).trans hend, ?_, rfl, ?_, fun hall => ?_⟩
    · simp [hout.ops, burstOps]
    · cases a
      · exact .inl rfl
      · exact hout.width
    · exact if_pos (hall (.pulse 0, a) (by simp))

end Sys2Proof.Machine
end

section
/-! PROOFS. The NEC-family encoder (R150 to R153): what a refill of the staging sequence leaves when it fits and when
it does not, the length of the frame, and the bits read back from it. -/

namespace Sys2Proof.Machine

/-! ### A refill from the empty sequence (R110, R112) -/

/-- The staging sequence after it has been refilled from empty with the slots `vs`, which fit. -/
def Staging.refill (stg : Staging) (vs : List Bool) : Staging where
  cells := overwrite stg.cells 0 vs
  fill := BitVec.ofNat 16 vs.length

section
variable {vs : List Bool} {s : State}

/-- A refill that fits is answered OK. -/
theorem refill_of_fits (h : vs.length ≤ s.cfg.cap.toNat) :
    (appendAll vs s.clearStaging).toResult =
      .next (State.plusResponse { s with stg := s.stg.refill vs } .ok 0) := by
  rcases appendAll_refill vs s with ⟨-, hrun⟩ | ⟨hlt, -⟩
  · rw [hrun]
    rfl
  · exact absurd h (Nat.not_le.2 hlt)

/-- A refill that does not fit is answered BUFFER_OVERFLOW, and the buffer is full of its first slots. -/
theorem refill_of_overflow (hwf : Memory.wf s.cfg.cap s.stg.cells = true) (h : s.cfg.cap.toNat < vs.length) :
    (appendAll vs s.clearStaging).toResult =
      .next (State.plusResponse
        { s with stg := { cells := vs.take s.cfg.cap.toNat, fill := s.cfg.cap } } .bufferOverflow 0) := by
  have hfull : (vs.take s.cfg.cap.toNat).length = s.stg.cells.length := by
    rw [List.length_take, Memory.wf_iff.1 hwf, Nat.min_eq_left h.le]
  rcases appendAll_refill vs s with ⟨hle, -⟩ | ⟨-, hrun⟩
  · exact absurd h (Nat.not_lt.2 hle)
  · rw [hrun, overwrite_full _ _ hfull]
    rfl

/-- A refill that is answered OK has fitted. -/
theorem refill_answered_ok {t : State} (h : (appendAll vs s.clearStaging).toResult = .next t)
    (hok : t.obs.responses = s.obs.responses ++ [⟨.ok, 0⟩]) :
    vs.length ≤ s.cfg.cap.toNat ∧ t.stg = s.stg.refill vs := by
  rcases appendAll_refill vs s with ⟨hle, hrun⟩ | ⟨-, hrun⟩ <;> rw [hrun] at h <;>
    obtain rfl := Host.Outcome.next.inj h
  · exact ⟨hle, rfl⟩
  · simp [State.fail, State.respond] at hok

end

section
variable {cap : SlotIndex} {stg : Staging} {vs : List Bool}

theorem Staging.refill_fill (h : vs.length ≤ cap.toNat) : (stg.refill vs).fill.toNat = vs.length :=
  (BitVec.toNat_ofNat ..).trans (Nat.mod_eq_of_lt (Nat.lt_of_le_of_lt h cap.isLt))

/-- The slots stand at the front of the buffer. -/
theorem Staging.refill_take (hwf : Memory.wf cap stg.cells = true) (h : vs.length ≤ cap.toNat) :
    (stg.refill vs).cells.take (stg.refill vs).fill.toNat = vs := by
  rw [Staging.refill_fill h]
  exact overwrite_take _ _ ((Memory.wf_iff.1 hwf).symm ▸ h)

theorem Staging.refill_wf (hwf : Memory.wf cap stg.cells = true) : Memory.wf cap (stg.refill vs).cells = true :=
  Memory.wf_iff.2 ((overwrite_length ..).trans (Memory.wf_iff.1 hwf))

/-- The cells behind the slots are as they were (R112). -/
theorem Staging.refill_readSlot_behind (hwf : Memory.wf cap stg.cells = true) (h : vs.length ≤ cap.toNat)
    {k : SlotIndex} (hk : (stg.refill vs).fill ≤ k) :
    readSlot (stg.refill vs).cells k = readSlot stg.cells k := by
  rw [BitVec.le_def, Staging.refill_fill h] at hk
  have hfits : 0 + vs.length ≤ stg.cells.length := by rwa [Memory.wf_iff.1 hwf, Nat.zero_add]
  exact (overwrite_getElem? _ _ _ hfits _).trans (if_neg (by omega))

end

/-! ### Symbols (R90) -/

theorem necSymbol_length (b : Bool) : (necSymbol b).length = 2 + 2 * b.toNat := by cases b <;> rfl

/-- A run of symbols has two slots for each bit and two more for each one bit. -/
theorem symbols_length (bits : List Bool) :
    (bits.flatMap necSymbol).length = 2 * bits.length + 2 * bits.count true := by
  induction bits with
  | nil => rfl
  | cons b bits ih =>
    rw [List.flatMap_cons, List.length_append, necSymbol_length, ih, List.length_cons, List.count_cons]
    cases b <;> simp <;> omega

/-- Reading a symbol back: what comes after it begins a symbol, with an on slot, or is nothing at all. -/
theorem necBits_symbol (b : Bool) {rest : List Bool} (h : rest = [] ∨ ∃ tail, rest = true :: tail) :
    necBits (necSymbol b ++ rest) = (necBits rest).map (b :: ·) := by
  cases b
  · rcases h with rfl | ⟨tail, rfl⟩ <;> simp [necSymbol, necBits]
  · simp [necSymbol, necBits]

/-- Every run of symbols is empty or begins with an on slot. -/
theorem symbols_begin_on (bits : List Bool) :
    bits.flatMap necSymbol = [] ∨ ∃ tail, bits.flatMap necSymbol = true :: tail := by
  cases bits with
  | nil => exact .inl rfl
  | cons b bits => cases b <;> exact .inr ⟨_, rfl⟩

/-- The bits of a run of symbols are read back from it (R152). -/
theorem necBits_symbols (bits : List Bool) : necBits (bits.flatMap necSymbol) = some bits := by
  induction bits with
  | nil => simp [necBits]
  | cons b bits ih => rw [List.flatMap_cons, necBits_symbol b (symbols_begin_on bits), ih, Option.map_some]

/-! ### The bits of a byte (R66) -/

/-- The bits of a byte, bit 0 first: the order in which `necByte` puts out their symbols. -/
def byteBits (x : Byte) : List Bool := (List.range 8).map fun i => x.getLsbD i

theorem necByte_eq_symbols (x : Byte) : necByte x = (byteBits x).flatMap necSymbol := (List.flatMap_map ..).symm

@[simp] theorem byteBits_length (x : Byte) : (byteBits x).length = 8 := rfl

theorem byteBits_count_true (x : Byte) : (byteBits x).count true = popCount x := by
  simp [byteBits, popCount, List.count, List.countP_map, Function.comp_def]

theorem byteBits_not (x : Byte) : byteBits (~~~x) = (byteBits x).map not := by
  rw [byteBits, byteBits, List.map_map]
  refine List.map_congr_left fun i hi => ?_
  simp [List.mem_range.1 hi]

theorem popCount_le (x : Byte) : popCount x ≤ 8 := List.countP_le_length

/-- A byte and its complement have eight one bits together: the length of a frame does not depend on the command. -/
theorem popCount_add_popCount_not (x : Byte) : popCount x + popCount (~~~x) = 8 := by
  have hnot : ((byteBits x).map not).count true = (byteBits x).count false :=
    List.count_map_of_injective _ not Bool.not_injective false
  rw [← byteBits_count_true, ← byteBits_count_true, byteBits_not, hnot, List.count_true_add_count_false,
    byteBits_length]

/-- Adding up the powers of two at the one bits below `n` gives the number modulo `2 ^ n`. -/
theorem foldl_testBit_eq_mod (m n : Nat) :
    (List.range n).foldl (fun acc i => acc + if m.testBit i then 2 ^ i else 0) 0 = m % 2 ^ n := by
  induction n with
  | zero => simp [Nat.mod_one]
  | succ n ih =>
    rw [List.range_succ, List.foldl_append, ih, Nat.mod_pow_succ, ← Nat.toNat_testBit]
    cases h : m.testBit n <;> simp [h]

/-- A byte is recovered from its bits. -/
theorem byteOfBits_byteBits (x : Byte) : byteOfBits (byteBits x) = x := by
  have hbit : ∀ i ∈ List.range 8, ((byteBits x)[i]?).getD false = x.toNat.testBit i := fun i hi => by
    simp [byteBits, List.mem_range.1 hi, BitVec.getLsbD]
  have hsum : (List.range 8).foldl (fun n i => n + if ((byteBits x)[i]?).getD false then 2 ^ i else 0) 0 = x.toNat := by
    rw [List.foldl_ext _ (fun n i => n + if x.toNat.testBit i then 2 ^ i else 0) 0 fun n i hi => by rw [hbit i hi],
      foldl_testBit_eq_mod, Nat.mod_eq_of_lt x.isLt]
  rw [byteOfBits, hsum, BitVec.ofNat_toNat, BitVec.setWidth_eq]

/-! ### The frame (R89) -/

/-- The 32 bits of a frame. -/
def necFrameBits (al ah cmd : Byte) : List Bool := byteBits al ++ byteBits ah ++ byteBits cmd ++ byteBits (~~~cmd)

theorem necFrame_eq_symbols (al ah cmd : Byte) :
    necFrame al ah cmd =
      (List.replicate 16 true ++ List.replicate 8 false) ++ (necFrameBits al ah cmd).flatMap necSymbol ++
        [true, false] := by
  simp only [necFrame, necFrameBits, necByte_eq_symbols, List.flatMap_append, List.append_assoc]

/-- The length law of R151. -/
theorem necFrame_length (al ah cmd : Byte) : (necFrame al ah cmd).length = necLength al ah := by
  have hcmd := popCount_add_popCount_not cmd
  simp only [necFrame_eq_symbols, necFrameBits, necLength, List.length_append, List.length_replicate, symbols_length,
    byteBits_length, List.count_append, byteBits_count_true, List.length_cons, List.length_nil]
  omega

theorem necLength_bounds (al ah : Byte) : 106 ≤ necLength al ah ∧ necLength al ah ≤ 138 := by
  have hal := popCount_le al
  have hah := popCount_le ah
  rw [necLength]
  omega

/-- A header, the symbols of 32 bits and a stop marker decode to the bits eight at a time (R152). -/
theorem necDecode_of_bits {bits : List Bool} (h : bits.length = 32) :
    necDecode ((List.replicate 16 true ++ List.replicate 8 false) ++ bits.flatMap necSymbol ++ [true, false]) =
      some (byteOfBits (bits.take 8), byteOfBits ((bits.drop 8).take 8), byteOfBits ((bits.drop 16).take 8),
        byteOfBits (bits.drop 24)) := by
  generalize hheader : List.replicate 16 true ++ List.replicate 8 false = header
  generalize hbody : bits.flatMap necSymbol = body
  have hlen : header.length = 24 := by rw [← hheader]; rfl
  have hread : necBits body = some bits := hbody ▸ necBits_symbols bits
  have hfront : (header ++ body ++ [true, false]).take 24 = header := by
    rw [List.append_assoc, List.take_left' hlen]
  have hmiddle : ((header ++ body ++ [true, false]).drop 24).take
      ((header ++ body ++ [true, false]).length - 26) = body := by
    rw [List.append_assoc, List.drop_left' hlen, List.take_left']
    simp only [List.length_append, List.length_cons, List.length_nil, hlen]
    omega
  have hend : (header ++ body ++ [true, false]).drop ((header ++ body ++ [true, false]).length - 2) =
      [true, false] :=
    List.drop_left' (by simp only [List.length_append, List.length_cons, List.length_nil]; omega)
  rw [necDecode, hheader, if_pos hfront, hmiddle, hread]
  exact if_pos ⟨h, hend⟩

/-- Decoding a frame recovers the bytes it was built from (R152). -/
theorem necDecode_necFrame (al ah cmd : Byte) :
    necDecode (necFrame al ah cmd) = some (al, ah, cmd, ~~~cmd) := by
  rw [necFrame_eq_symbols, necDecode_of_bits rfl]
  simp only [Option.some.injEq, Prod.mk.injEq]
  exact ⟨byteOfBits_byteBits al, byteOfBits_byteBits ah, byteOfBits_byteBits cmd, byteOfBits_byteBits (~~~cmd)⟩

/-! ### The command ENC.NEC (R150) -/

theorem exec_encNec (al ah cmd : Byte) (s : State) :
    exec (.encNec al ah cmd) s = (appendAll (necFrame al ah cmd) s.clearStaging).toResult := rfl

/-- Settles O17: an ENC.NEC answered OK has staged exactly its frame, and the frame decodes to its bytes. -/
theorem encNecDecodable : Obligations.EncNecDecodable := by
  intro al ah cmd s t hwf hexec hok
  rw [exec_encNec] at hexec
  obtain ⟨hfits, hstg⟩ := refill_answered_ok hexec hok
  rw [State.staged, hstg, Staging.refill_take hwf hfits, necDecode_necFrame]

/-- Settles O15: the frame fits, so the refill writes it from cell 0 on and nothing else. -/
theorem encNecStagesFrame : Obligations.EncNecStagesFrame := by
  intro al ah cmd s hwf hle
  rw [← necFrame_length al ah cmd] at hle ⊢
  exact ⟨s.stg.refill (necFrame al ah cmd), refill_of_fits hle, Staging.refill_fill hle, Staging.refill_take hwf hle,
    Staging.refill_wf hwf, fun _ => Staging.refill_readSlot_behind hwf hle⟩

/-- Settles O16: `stg_fill` is the length of the frame, in which the command and its complement make up for each
other. -/
theorem encNecLengthLaw : Obligations.EncNecLengthLaw := by
  intro al ah cmd s t hexec hok
  rw [exec_encNec] at hexec
  obtain ⟨hfits, hstg⟩ := refill_answered_ok hexec hok
  have hfill : t.stg.fill.toNat = necLength al ah := by
    rw [hstg, Staging.refill_fill hfits, necFrame_length]
  exact ⟨hfill, hfill ▸ necLength_bounds al ah⟩

/-- Settles O18: the frame does not fit, so its first `CAP` slots fill the buffer. -/
theorem encNecOverflowKeepsPrefix : Obligations.EncNecOverflowKeepsPrefix := by
  intro al ah cmd s hwf hlt
  rw [exec_encNec]
  exact refill_of_overflow hwf (by rwa [necFrame_length])

end Sys2Proof.Machine
end

section
/-! PROOFS. The Biphase encoder (R160 to R165): the layout of the code, the frame as the pairs of its bits, what the
toggle changes in both, and what ENC.BIPH POWER leaves when the frame fits and when it does not. -/

namespace Sys2Proof.Machine

/-! ### The code (R91, R161) -/

/-- The code bit by bit: command 5:0, address 10:6, toggle 11, start bits 13:12. -/
theorem biphaseCode_getLsbD (addr : BitVec 5) (cmd : BitVec 6) (t : Bool) {k : Nat} (hk : k < 14) :
    (biphaseCode addr cmd t).getLsbD k =
      if k < 6 then cmd.getLsbD k else if k < 11 then addr.getLsbD (k - 6) else if k = 11 then t else true := by
  have hstart : ∀ j < 2, (0b11#2).getLsbD j = true := by decide
  simp only [biphaseCode, BitVec.getLsbD_append]
  by_cases hcmd : k < 6
  · simp only [if_pos hcmd]
  by_cases haddr : k < 11
  · simp only [if_neg hcmd, if_pos haddr, if_pos (show k - 6 < 5 by omega)]
  by_cases htoggle : k = 11
  · simp [htoggle]
  · simp only [if_neg hcmd, if_neg haddr, if_neg htoggle, if_neg (show ¬ k - 6 < 5 by omega),
      if_neg (show ¬ k - 6 - 5 < 1 by omega), hstart (k - 6 - 5 - 1) (by omega)]

/-- Another toggle is seen in bit 11 and in no other bit (R163). -/
theorem biphaseCode_bit_eq_flipped_iff (addr : BitVec 5) (cmd : BitVec 6) (t : Bool) {k : Nat} (hk : k < 14) :
    (biphaseCode addr cmd t).getLsbD k = (biphaseCode addr cmd !t).getLsbD k ↔ k ≠ 11 := by
  rw [biphaseCode_getLsbD _ _ _ hk, biphaseCode_getLsbD _ _ _ hk]
  by_cases h : k = 11 <;> simp [h]

/-! ### Pairs (R67, R92) -/

/-- The two slots of one bit. -/
def biphasePair (b : Bool) : List Bool := [!b, b]

theorem pairs_length (bits : List Bool) : (bits.flatMap biphasePair).length = 2 * bits.length := by
  induction bits with
  | nil => rfl
  | cons b bits ih =>
    simp only [List.flatMap_cons, List.length_append, ih, biphasePair, List.length_cons, List.length_nil]
    omega

/-- Slot `2k` is the complement of bit `k`, slot `2k+1` the bit. -/
theorem pairs_getElem? (bits : List Bool) (k : Nat) :
    (bits.flatMap biphasePair)[2 * k]? = bits[k]?.map not ∧ (bits.flatMap biphasePair)[2 * k + 1]? = bits[k]? := by
  induction bits generalizing k with
  | nil => simp
  | cons b bits ih =>
    cases k with
    | zero => simp [biphasePair]
    | succ k => exact ih k

/-- Every pair has one on slot. -/
theorem pairs_count_true (bits : List Bool) : (bits.flatMap biphasePair).count true = bits.length := by
  induction bits with
  | nil => rfl
  | cons b bits ih =>
    rw [List.flatMap_cons, List.count_append, ih, List.length_cons, Nat.add_comm]
    cases b <;> rfl

/-! ### The frame (R92) -/

/-- The bits of a code, bit 13 first: the order in which `biphaseFrame` puts out their pairs. -/
def codeBits (code : BitVec 14) : List Bool := (List.range 14).map fun k => code.getLsbD (13 - k)

theorem codeBits_getElem? (code : BitVec 14) {k : Nat} (hk : k < 14) :
    (codeBits code)[k]? = some (code.getLsbD (13 - k)) := by
  simp [codeBits, hk]

theorem biphaseFrame_eq_pairs (code : BitVec 14) : biphaseFrame code = (codeBits code).flatMap biphasePair :=
  (List.flatMap_map (fun k => code.getLsbD (13 - k)) biphasePair (List.range 14)).symm

@[simp] theorem biphaseFrame_length (code : BitVec 14) : (biphaseFrame code).length = 28 := by
  rw [biphaseFrame_eq_pairs, pairs_length]
  rfl

theorem biphaseFrame_even (code : BitVec 14) {k : Nat} (hk : k < 14) :
    (biphaseFrame code)[2 * k]? = some (!code.getLsbD (13 - k)) := by
  rw [biphaseFrame_eq_pairs, (pairs_getElem? _ k).1, codeBits_getElem? code hk]
  rfl

theorem biphaseFrame_odd (code : BitVec 14) {k : Nat} (hk : k < 14) :
    (biphaseFrame code)[2 * k + 1]? = some (code.getLsbD (13 - k)) := by
  rw [biphaseFrame_eq_pairs, (pairs_getElem? _ k).2, codeBits_getElem? code hk]

theorem biphaseFrame_count_true (code : BitVec 14) : (biphaseFrame code).count true = 14 := by
  rw [biphaseFrame_eq_pairs, pairs_count_true]
  rfl

/-- The two slots of a pair differ. -/
theorem biphaseFrame_pair_ne (code : BitVec 14) {k : Nat} (hk : k < 14) :
    (biphaseFrame code)[2 * k]? ≠ (biphaseFrame code)[2 * k + 1]? := by
  rw [biphaseFrame_even code hk, biphaseFrame_odd code hk]
  simp

/-- Of three slots in a row two are a pair, so they are not all equal (R162). -/
theorem biphaseFrame_no_three_equal (code : BitVec 14) {k : Nat} (hk : k + 2 < 28) :
    ¬ ((biphaseFrame code)[k]? = (biphaseFrame code)[k + 1]? ∧
      (biphaseFrame code)[k + 1]? = (biphaseFrame code)[k + 2]?) := by
  rintro ⟨hfirst, hsecond⟩
  rcases Nat.even_or_odd' k with ⟨j, rfl | rfl⟩
  · exact biphaseFrame_pair_ne code (by omega) hfirst
  · exact biphaseFrame_pair_ne code (k := j + 1) (by omega) hsecond

/-- Two frames agree in a slot exactly where their codes agree in the bit of its pair. -/
theorem biphaseFrame_getElem?_eq_iff (code code' : BitVec 14) {k : Nat} (hk : k < 28) :
    (biphaseFrame code)[k]? = (biphaseFrame code')[k]? ↔
      code.getLsbD (13 - k / 2) = code'.getLsbD (13 - k / 2) := by
  rcases Nat.even_or_odd' k with ⟨j, rfl | rfl⟩
  · rw [biphaseFrame_even code (by omega), biphaseFrame_even code' (by omega), Nat.mul_div_cancel_left j two_pos]
    simp
  · rw [biphaseFrame_odd code (by omega), biphaseFrame_odd code' (by omega), show (2 * j + 1) / 2 = j by omega]
    simp

/-- Frames of codes that differ in the toggle alone differ in slots 4 and 5 alone (R163). -/
theorem biphaseFrame_slot_eq_flipped_iff (addr : BitVec 5) (cmd : BitVec 6) (t : Bool) (k : Nat) :
    (biphaseFrame (biphaseCode addr cmd t))[k]? = (biphaseFrame (biphaseCode addr cmd !t))[k]? ↔
      k ≠ 4 ∧ k ≠ 5 := by
  by_cases hk : k < 28
  · rw [biphaseFrame_getElem?_eq_iff _ _ hk, biphaseCode_bit_eq_flipped_iff _ _ _ (by omega)]
    omega
  · rw [List.getElem?_eq_none (by simp; omega), List.getElem?_eq_none (by simp; omega)]
    simp only [true_iff]
    omega

/-- Both start bits are 1, so every frame of a biphase code begins `0101` (R162). -/
theorem biphaseFrame_start (addr : BitVec 5) (cmd : BitVec 6) (t : Bool) :
    (biphaseFrame (biphaseCode addr cmd t)).take 4 = [false, true, false, true] := by
  have h13 : (biphaseCode addr cmd t).getLsbD 13 = true := biphaseCode_getLsbD addr cmd t (by omega)
  have h12 : (biphaseCode addr cmd t).getLsbD 12 = true := biphaseCode_getLsbD addr cmd t (by omega)
  have hfront (code : BitVec 14) : (biphaseFrame code).take 4 =
    [!code.getLsbD 13, code.getLsbD 13, !code.getLsbD 12, code.getLsbD 12] := rfl
  rw [hfront, h13, h12]
  rfl

/-! ### The command ENC.BIPH (R160, R164) -/

/-- A slot of a refill that fits, read in the buffer. -/
theorem Staging.refill_getElem? {cap : SlotIndex} {stg : Staging} {vs : List Bool}
    (hwf : Memory.wf cap stg.cells = true) (h : vs.length ≤ cap.toNat) {k : Nat} (hk : k < vs.length) :
    (stg.refill vs).cells[k]? = vs[k]? := by
  rw [← List.getElem?_take_of_lt hk, ← Staging.refill_fill (stg := stg) h, Staging.refill_take hwf h]

theorem exec_encBiph_power (s : State) :
    exec (.encBiph .power) s =
      (appendAll (biphaseFrame s.flipToggle.powerCode) s.flipToggle.clearStaging).toResult := rfl

/-- An ENC.BIPH POWER that is answered OK has flipped the toggle and staged exactly the frame of the code built with
the flipped toggle. -/
theorem encBiph_power_answered_ok {s t : State} (hwf : Memory.wf s.cfg.cap s.stg.cells = true)
    (hexec : exec (.encBiph .power) s = .next t) (hok : t.obs.responses = s.obs.responses ++ [⟨.ok, 0⟩]) :
    t.cfg = s.cfg ∧ t.toggle = (!s.toggle) ∧ t.stg.fill = 28 ∧ t.staged = biphaseFrame t.powerCode := by
  rw [exec_encBiph_power] at hexec
  -- Kept closed, or comparing two states would run the refill slot by slot.
  generalize hframe : biphaseFrame s.flipToggle.powerCode = frame at hexec
  have hlen : frame.length = 28 := hframe ▸ biphaseFrame_length _
  obtain ⟨hfits, -⟩ := refill_answered_ok hexec hok
  obtain rfl := Host.Outcome.next.inj ((refill_of_fits hfits).symm.trans hexec)
  exact ⟨rfl, rfl, congrArg (BitVec.ofNat 16) hlen, (Staging.refill_take hwf hfits).trans hframe.symm⟩

/-- Settles O20: the frame has 28 slots, so the refill of the flipped state writes it from cell 0 on and nothing
else. -/
theorem encBiphPowerStagesFrame : Obligations.EncBiphPowerStagesFrame := by
  intro s hwf hcap
  have hlen := biphaseFrame_length s.flipToggle.powerCode
  have hfits : (biphaseFrame s.flipToggle.powerCode).length ≤ s.cfg.cap.toNat := hlen ▸ hcap
  refine ⟨s.stg.refill (biphaseFrame s.flipToggle.powerCode), refill_of_fits (s := s.flipToggle) hfits,
    congrArg (BitVec.ofNat 16) hlen, fun k hk => ⟨?_, ?_⟩, Staging.refill_wf hwf,
    fun _ => Staging.refill_readSlot_behind hwf hfits⟩
  · exact (Staging.refill_getElem? hwf hfits (by omega)).trans (biphaseFrame_even _ hk)
  · exact (Staging.refill_getElem? hwf hfits (by omega)).trans (biphaseFrame_odd _ hk)

/-- Settles O21: what is staged is the frame of the code, and a frame has this shape. -/
theorem encBiphShape : Obligations.EncBiphShape := by
  intro s t hwf hexec hok
  obtain ⟨-, -, hfill, hstaged⟩ := encBiph_power_answered_ok hwf hexec hok
  rw [hstaged]
  exact ⟨hfill, biphaseFrame_length _, fun _ hk => ⟨biphaseFrame_pair_ne _ hk, biphaseFrame_odd _ hk⟩,
    biphaseFrame_start .., biphaseFrame_count_true _, fun _ => biphaseFrame_no_three_equal _⟩

/-- Settles O22: the second encode builds its code with the other toggle and with nothing else changed. -/
theorem encBiphToggleLaw : Obligations.EncBiphToggleLaw := by
  intro s t s' t' hwf hwf' hexec hok htoggle hcfg hexec' hok'
  obtain ⟨-, htog, -, hstaged⟩ := encBiph_power_answered_ok hwf hexec hok
  obtain ⟨hcfg', htog', -, hstaged'⟩ := encBiph_power_answered_ok hwf' hexec' hok'
  have hflip : t'.toggle = !t.toggle := by rw [htog', htoggle]
  have hcode : t'.powerCode = biphaseCode t.cfg.biphAddr t.cfg.biphCmdPower !t.toggle := by
    rw [State.powerCode, hflip, hcfg', hcfg]
  rw [hstaged, hstaged', hcode]
  exact ⟨by rw [hflip, htog, Bool.not_not], fun _ => biphaseCode_bit_eq_flipped_iff _ _ _,
    biphaseFrame_slot_eq_flipped_iff _ _ _⟩

/-- Settles O24: the frame has 28 slots and does not fit, so its first `CAP` slots fill the buffer of the flipped
state. -/
theorem encBiphOverflowKeepsPrefix : Obligations.EncBiphOverflowKeepsPrefix := by
  intro s hwf hlt
  exact refill_of_overflow (s := s.flipToggle) hwf (by rwa [biphaseFrame_length])

/-- Settles O19: each field of the concatenation is shifted by the widths of the fields below it. -/
theorem biphaseCodeLayout : Obligations.BiphaseCodeLayout := by
  intro addr cmd t
  simp only [biphaseCode, BitVec.toNat_append, BitVec.toNat_ofBool, Nat.shiftLeft_or_distrib, ← Nat.shiftLeft_add]
  rfl

/-- Settles O23: the button is tested before the toggle is flipped. -/
theorem encBiphUnsupportedChangesNothing : Obligations.EncBiphUnsupportedChangesNothing := by
  intro button s hbutton
  cases button with
  | power => exact absurd rfl hbutton
  | up | down | cancel => rfl

end Sys2Proof.Machine
end

section
/-! PROOFS. The Pulse-Pattern Transmitter step by step (R170 to R181): PP.PRESS by its three answers, the tick of each
phase, which steps change `pp_phase`, and that the transmitter and the other components write nothing of each
other. -/

namespace Sys2Proof.Machine

/-! ### PP.PRESS (R171) -/

theorem exec_ppPress_power (s : State) : exec (.ppPress .power) s = .next (s.plusResponse .unsupported 0) := rfl

section
variable {button : Button} {key : Byte} {s : State}

theorem exec_ppPress_of_busy (hkey : keyCode s.cfg button = some key) (hbusy : s.pp.phase ≠ .idle) :
    exec (.ppPress button) s = .next (s.plusResponse .busy 0) := by
  simp only [exec, execPpPress, hkey, if_pos hbusy]
  rfl

theorem exec_ppPress_of_idle (hkey : keyCode s.cfg button = some key) (hidle : s.pp.phase = .idle) :
    exec (.ppPress button) s = .next (State.plusResponse { s with pp := startFrames s.cfg key } .ok 0) := by
  simp only [exec, execPpPress, hkey, if_neg (not_not.2 hidle)]
  rfl

end

theorem keyCode_isSome (cfg : Config) {button : Button} (h : button ≠ .power) :
    ∃ key, keyCode cfg button = some key := by
  cases button with
  | power => exact absurd rfl h
  | up | down | cancel => exact ⟨_, rfl⟩

/-- Settles O36: POWER has no key code; a button with one is answered BUSY, or its frames start. -/
theorem ppPressStartsFrames : Obligations.PpPressStartsFrames := by
  refine ⟨exec_ppPress_power, fun button s hbutton hbusy => ?_, fun button key s hbutton hidle => ?_⟩
  · obtain ⟨key, hkey⟩ := keyCode_isSome s.cfg hbutton
    exact exec_ppPress_of_busy hkey hbusy
  · have hkey : keyCode s.cfg button = some key := by
      rcases hbutton with ⟨rfl, rfl⟩ | ⟨rfl, rfl⟩ | ⟨rfl, rfl⟩ <;> rfl
    exact exec_ppPress_of_idle hkey hidle

/-! ### PP_TICK (R174) -/

section
variable {s : State}

theorem takeMove_ppTick (hrun : s.pp.run = true) : takeMove .ppTick s = ppTick s := takeMove_of_enabled hrun

theorem ppTick_of_preamble (hphase : s.pp.phase = .preamble) :
    ppTick s =
      .next (s.ppOutput (decide (s.pp.pre = 0)) (afterPreambleTick s.cfg.ppPreambleTicks s.pp)) := by
  simp only [ppTick, hphase]

theorem ppTick_of_data (hphase : s.pp.phase = .data) (hbit : s.pp.bit ≤ 23) :
    ppTick s =
      .next (s.ppOutput (ppLevel (s.pp.payload.getLsbD (23 - s.pp.bit.toNat)) s.pp.sub)
        (afterDataTick s.pp)) := by
  simp only [ppTick, hphase, if_pos hbit]

end

@[simp] theorem State.ppOutput_pp (level : Bool) (p : PulsePattern) (s : State) : (s.ppOutput level p).pp = p := rfl

/-! ### The counters after a preamble tick (R176) -/

section
variable {ticks : BitVec 16} {p : PulsePattern}

theorem afterPreambleTick_of_lt (h : p.pre.toNat + 1 < ticks.toNat) :
    afterPreambleTick ticks p = { p with pre := p.pre + 1 } :=
  if_pos h

theorem afterPreambleTick_of_le (h : ticks.toNat ≤ p.pre.toNat + 1) :
    afterPreambleTick ticks p = { p with pre := 0, phase := .data } :=
  if_neg (Nat.not_lt.2 h)

end

/-- Settles O38: the preamble tick's output, and its counters below and at the last tick. -/
theorem ppTickPreamble : Obligations.PpTickPreamble := by
  intro s hrun hphase
  exact ⟨_, (takeMove_ppTick hrun).trans (ppTick_of_preamble hphase), ppOutput_eq .., afterPreambleTick_of_lt,
    afterPreambleTick_of_le⟩

/-! ### The counters after a data tick (R177, R178) -/

section
variable {p : PulsePattern}

theorem afterDataTick_of_sub (hsub : p.sub ≠ 3) : afterDataTick p = { p with sub := p.sub + 1 } :=
  if_pos (by bv_omega)

theorem afterDataTick_of_bit (hsub : p.sub = 3) (hbit : p.bit < 23) :
    afterDataTick p = { p with sub := 0, bit := p.bit + 1 } := by
  rw [afterDataTick, hsub, if_neg (by decide), if_pos hbit]

theorem afterDataTick_of_retries (hsub : p.sub = 3) (hbit : p.bit = 23) (h : p.retries ≠ 0) :
    afterDataTick p = { p with sub := 0, bit := 0, retries := p.retries - 1, phase := .preamble } := by
  rw [afterDataTick, hsub, hbit, if_neg (by decide), if_neg (by decide), frameEnd, if_pos h]

theorem afterDataTick_of_no_retries (hsub : p.sub = 3) (hbit : p.bit = 23) (h : p.retries = 0) :
    afterDataTick p = { p with sub := 0, bit := 0, run := false, phase := .idle } := by
  rw [afterDataTick, hsub, hbit, if_neg (by decide), if_neg (by decide), frameEnd, if_neg (not_not.2 h)]

end

/-- The level of sub-phase `sub` in the table of R94 is the one of R175. -/
theorem dataBitLevels_getElem? : ∀ (b : Bool) (sub : BitVec 2),
    (dataBitLevels b)[sub.toNat]? = some (ppLevel b sub) := by
  decide

/-- Settles O39: the data tick's output, and its counters within a bit, within the frame and at its end. -/
theorem ppTickData : Obligations.PpTickData := by
  intro s hrun hphase hbit
  have hle : s.pp.bit ≤ 23 := by bv_omega
  exact ⟨_, _, (takeMove_ppTick hrun).trans (ppTick_of_data hphase hle), dataBitLevels_getElem? _ _,
    ppOutput_eq .., afterDataTick_of_sub, fun hsub hne => afterDataTick_of_bit hsub (by bv_omega),
    afterDataTick_of_retries, afterDataTick_of_no_retries⟩

/-! ### Who writes the registers of the transmitter (R170, R181) -/

/-- A command that writes the registers is a PP.PRESS that starts the frames of its key (R171). -/
theorem exec_pp {i : Instr} {s t : State} (h : exec i s = .next t) :
    t.pp = s.pp ∨
    ∃ button key, i = .ppPress button ∧ keyCode s.cfg button = some key ∧ s.pp.phase = .idle ∧
      t.pp = startFrames s.cfg key := by
  rcases exec_cases h with ⟨_, _, rfl, -⟩ | ⟨_, _, -, -, rfl, -⟩ | ⟨_, _, -, -, rfl, -⟩ |
    ⟨_, _, _, -, -, -, rfl⟩ | ⟨_, _, _, -, -, -, -, rfl⟩ | ⟨button, key, hi, hkey, hidle, rfl⟩
  case inr.inr.inr.inr.inr => exact .inr ⟨button, key, hi, hkey, hidle, rfl⟩
  all_goals exact .inl (by simp [acquire_eq])

/-- Every step that writes the registers, RESET apart: a PP.PRESS accepted in phase IDLE, or a PP_TICK of the running
timer. -/
theorem takeMove_pp_cases {m : Move} {s t : State} (h : takeMove m s = .next t) (hm : m ≠ .reset) :
    t.pp = s.pp ∨
    (m = .host ∧ s.bs.wait = false ∧ ∃ button key, s.offered = some (.ppPress button) ∧
      keyCode s.cfg button = some key ∧ s.pp.phase = .idle ∧ t.pp = startFrames s.cfg key) ∨
    (m = .ppTick ∧ s.pp.run = true ∧ ppTick s = .next t) := by
  by_cases hseq : m ∈ sequencerMoves
  · exact .inl (takeMove_pp hseq h)
  rcases takeMove_cases h with ⟨-, rfl⟩ | ⟨hen, hdo⟩
  · exact .inl rfl
  cases m with
  | host =>
    rcases hostStep_cases hdo with ⟨-, rfl⟩ | ⟨p, rest, _, -, -, rfl⟩ | ⟨p, rest, i, hport, hdecode, hexec⟩
    · exact .inl rfl
    · exact .inl rfl
    rcases exec_pp hexec with hsame | ⟨button, key, rfl, hkey, hidle, hpp⟩
    · exact .inl hsame
    · exact .inr (.inl ⟨rfl, ((enabled_host_iff s).1 hen).1, button, key,
        by simp [State.offered, hport, hdecode], hkey, hidle, hpp⟩)
  | ppTick => exact .inr (.inr ⟨rfl, hen, hdo⟩)
  | reset => exact absurd rfl hm
  | bsTick | bsWork | bsGrant | bsTimeout => exact absurd (by simp [sequencerMoves]) hseq

/-! ### The transitions of `pp_phase` (R170) -/

/-- A preamble tick that changes the phase is the last one (R176). -/
theorem afterPreambleTick_phase_ne {ticks : BitVec 16} {p : PulsePattern}
    (h : (afterPreambleTick ticks p).phase ≠ p.phase) :
    ticks.toNat ≤ p.pre.toNat + 1 ∧ (afterPreambleTick ticks p).phase = .data := by
  by_cases hlt : p.pre.toNat + 1 < ticks.toNat
  · simp [afterPreambleTick_of_lt hlt] at h
  · have hle := Nat.not_lt.1 hlt
    exact ⟨hle, by rw [afterPreambleTick_of_le hle]⟩

/-- A data tick that changes the phase is the last one of bit 23, and the retries decide where it leads (R178). -/
theorem afterDataTick_phase_ne {p : PulsePattern} (hbit : p.bit ≤ 23) (h : (afterDataTick p).phase ≠ p.phase) :
    p.bit = 23 ∧ p.sub = 3 ∧
      ((p.retries ≠ 0 ∧ (afterDataTick p).phase = .preamble) ∨
       (p.retries = 0 ∧ (afterDataTick p).phase = .idle)) := by
  by_cases hsub : p.sub = 3
  case neg => simp [afterDataTick_of_sub hsub] at h
  by_cases hlt : p.bit < 23
  · simp [afterDataTick_of_bit hsub hlt] at h
  have hlast : p.bit = 23 := by bv_omega
  refine ⟨hlast, hsub, ?_⟩
  by_cases hretries : p.retries = 0
  · exact .inr ⟨hretries, by rw [afterDataTick_of_no_retries hsub hlast hretries]⟩
  · exact .inl ⟨hretries, by rw [afterDataTick_of_retries hsub hlast hretries]⟩

/-- Settles O42: a PP.PRESS leads from IDLE to PREAMBLE, and the ticks that change the phase are the last of a preamble
and the last of a frame. -/
theorem ppPhaseTransitions : Obligations.PpPhaseTransitions := by
  intro s t hinv hstep hm hne
  rcases takeMove_pp_cases hstep hm with hsame | ⟨hhost, hwait, button, key, hoffered, hkey, hidle, hpp⟩ |
    ⟨htick, hrun, hdo⟩
  · exact absurd (by simp [hsame]) hne
  · refine .inl ⟨by simpa using hidle, by rw [hpp]; rfl, button, ?_, hhost, by simpa using hwait,
      by simpa using hoffered⟩
    rintro rfl
    cases hkey
  · refine .inr ⟨htick, by simpa using hrun, ?_⟩
    rcases ppTick_cases hdo with ⟨hphase, rfl⟩ | ⟨hphase, hbit, rfl⟩ <;>
      simp only [State.ppOutput_pp, State.afterMove_pp, State.afterMove_cfg] at hphase hne ⊢
    · obtain ⟨hle, hdata⟩ := afterPreambleTick_phase_ne hne
      exact .inl ⟨hphase, hdata, Nat.le_antisymm (hinv.ppPreamble hphase).1 hle⟩
    · obtain ⟨hlast, hsub, ⟨hretries, hto⟩ | ⟨hretries, hto⟩⟩ :=
        afterDataTick_phase_ne (by simpa using hbit) hne
      · exact .inr (.inl ⟨hphase, hto, hlast, hsub, hretries⟩)
      · exact .inr (.inr ⟨hphase, hto, hlast, hsub, hretries⟩)

/-! ### Independence (R181) -/

/-- PP.PRESS writes the registers of the transmitter and its response, nothing else (R171). -/
theorem exec_ppPress_frame {button : Button} {s t : State} (h : exec (.ppPress button) s = .next t) :
    ∃ code, t = State.plusResponse { s with pp := t.pp } code 0 := by
  by_cases hpower : button = .power
  · subst hpower
    obtain rfl := Host.Outcome.next.inj h
    exact ⟨_, rfl⟩
  obtain ⟨key, hkey⟩ := keyCode_isSome s.cfg hpower
  by_cases hidle : s.pp.phase = .idle
  · obtain rfl := Host.Outcome.next.inj ((exec_ppPress_of_idle hkey hidle).symm.trans h)
    exact ⟨_, rfl⟩
  · obtain rfl := Host.Outcome.next.inj ((exec_ppPress_of_busy hkey hidle).symm.trans h)
    exact ⟨_, rfl⟩

/-- Settles O43: the frames of PP.PRESS and PP_TICK, and of the other commands and the sequencer's steps; only PP_TICK
reaches the pin. -/
theorem pulsePatternIndependent : Obligations.PulsePatternIndependent := by
  refine ⟨fun button s t h => ?_, fun i s t hi hexec => ?_, fun m s t hm hdo => ?_⟩
  · rcases h with hexec | hdo
    · obtain ⟨_, ht⟩ := exec_ppPress_frame hexec
      rw [ht]
      exact ⟨rfl, rfl, rfl, rfl, rfl, rfl, rfl⟩
    rcases takeMove_cases hdo with ⟨-, rfl⟩ | ⟨-, htick⟩
    · exact ⟨rfl, rfl, rfl, rfl, rfl, rfl, rfl⟩
    · obtain ⟨_, ht⟩ := ppTick_frame htick
      rw [ht]
      simp
  · obtain ⟨-, -, hpin, htrace⟩ := exec_frame hexec
    rcases exec_pp hexec with hpp | ⟨button, _, hpress, -⟩
    · exact ⟨hpp, hpin, htrace⟩
    · exact absurd hpress (hi button)
  · have hreset : m ≠ .reset := by rcases hm with rfl | rfl | rfl | rfl <;> decide
    have htick : m ≠ .ppTick := by rcases hm with rfl | rfl | rfl | rfl <;> decide
    have hlog : t.errlog.ppTickErr = s.errlog.ppTickErr := by simp [takeMove_errlog hdo hreset, htick]
    rcases takeMove_pin hdo hreset with ⟨hpin, htrace⟩ | ⟨rfl, -⟩
    · exact ⟨takeMove_pp (mem_sequencerMoves.2 hm) hdo, hpin, htrace, hlog⟩
    · exact absurd rfl htick

end Sys2Proof.Machine
end

section
/-! PROOFS. Frames of the Pulse-Pattern Transmitter (R94, R178, R179): a run of ticks seen at its registers alone, the
levels of a preamble, a bit, a frame and all frames of a press, and how often the levels of a frame rise. -/

namespace Sys2Proof.Machine

/-! ### Ticks seen at the registers of the transmitter -/

/-- With `ticks` preamble ticks and running registers `p`, PP_TICK writes `level` and leaves the registers `q`. -/
structure PpTicks (ticks : BitVec 16) (p : PulsePattern) (level : Bool) (q : PulsePattern) : Prop where
  run : p.run = true
  tick : ∀ s : State, s.pp = p → s.cfg.ppPreambleTicks = ticks → ppTick s = .next (s.ppOutput level q)

/-- As many PP_TICKs as there are levels write these levels and lead from the registers `p` to `q`. -/
inductive PpRuns (ticks : BitVec 16) : PulsePattern → List Bool → PulsePattern → Prop
  | nil (p : PulsePattern) : PpRuns ticks p [] p
  | cons {p q r : PulsePattern} {level : Bool} {levels : List Bool}
      (head : PpTicks ticks p level q) (tail : PpRuns ticks q levels r) : PpRuns ticks p (level :: levels) r

section
variable {ticks : BitVec 16}

theorem PpRuns.append {p q r : PulsePattern} {front back : List Bool} (h : PpRuns ticks p front q)
    (h' : PpRuns ticks q back r) : PpRuns ticks p (front ++ back) r := by
  induction h with
  | nil => exact h'
  | cons head _ ih => exact .cons head (ih h')

/-- Within a run the timer has not stopped (R174). -/
theorem PpRuns.take {p r : PulsePattern} {levels : List Bool} (h : PpRuns ticks p levels r) {n : Nat}
    (hn : n < levels.length) : ∃ q, PpRuns ticks p (levels.take n) q ∧ q.run = true := by
  induction h generalizing n with
  | nil => cases hn
  | cons head _ ih =>
    cases n with
    | zero => exact ⟨_, .nil _, head.run⟩
    | succ n =>
      obtain ⟨q, hruns, hrun⟩ := ih (Nat.lt_of_succ_lt_succ hn)
      exact ⟨q, .cons head hruns, hrun⟩

theorem PpTicks.preamble {p : PulsePattern} (hrun : p.run = true) (hphase : p.phase = .preamble) :
    PpTicks ticks p (decide (p.pre = 0)) (afterPreambleTick ticks p) where
  run := hrun
  tick := by
    rintro s rfl rfl
    exact ppTick_of_preamble hphase

theorem PpTicks.data {p : PulsePattern} (hrun : p.run = true) (hphase : p.phase = .data) (hbit : p.bit ≤ 23) :
    PpTicks ticks p (ppLevel (p.payload.getLsbD (23 - p.bit.toNat)) p.sub) (afterDataTick p) where
  run := hrun
  tick := by
    rintro s rfl rfl
    exact ppTick_of_data hphase hbit

end

/-! ### A run of ticks in the machine -/

/-- From `s` to `t` the transmitter has put out `levels`; nothing but its registers, the pin, the pin's trace and log
bit and the inputs has changed (R180). -/
structure PutsOut (s t : State) (levels : List Bool) : Prop where
  levels : t.obs.pinTrace.map Prod.fst = s.obs.pinTrace.map Prod.fst ++ levels
  frame : t =
    { s with
      pp := t.pp
      pin := t.pin
      errlog := { s.errlog with ppTickErr := t.errlog.ppTickErr }
      obs := { s.obs with pinTrace := t.obs.pinTrace }
      env := t.env }

theorem PutsOut.trans {s t u : State} {front back : List Bool} (h : PutsOut s t front) (h' : PutsOut t u back) :
    PutsOut s u (front ++ back) where
  levels := by rw [h'.levels, h.levels, List.append_assoc]
  frame := by rw [h'.frame, h.frame]

theorem PutsOut.ppOutput (env : Environment) (level : Bool) (p : PulsePattern) (s : State) :
    PutsOut s (State.ppOutput level p { s with env := env }) [level] := by
  rw [ppOutput_eq]
  exact ⟨by simp, rfl⟩

/-- A run at the registers is a run of the machine whose schedule begins with these PP_TICKs. -/
theorem PpRuns.runFor_putsOut {p q : PulsePattern} {levels : List Bool} {s : State} {rest : List Move}
    (h : PpRuns s.cfg.ppPreambleTicks p levels q) (hpp : s.pp = p)
    (hsched : s.env.sched = List.replicate levels.length .ppTick ++ rest) :
    ∃ t, runFor levels.length s = .next t ∧ t.pp = q ∧ PutsOut s t levels := by
  generalize hticks : s.cfg.ppPreambleTicks = ticks at h
  induction h generalizing s with
  | nil => exact ⟨s, rfl, hpp, by simp, rfl⟩
  | @cons p q r level levels head _ ih =>
    let next : State := { s with env := { s.env with sched := List.replicate levels.length .ppTick ++ rest } }
    have hfirst : runFor 1 s = .next (next.ppOutput level q) := by
      rw [runFor_one_of_sched hsched, takeMove_ppTick (by rw [← head.run, ← hpp])]
      exact head.tick next hpp hticks
    have hout : PutsOut s (next.ppOutput level q) [level] := PutsOut.ppOutput _ level q s
    obtain ⟨t, hrun, hq, hrest⟩ := ih (s := next.ppOutput level q) rfl (by simp [next])
      (by rw [hout.frame, hticks])
    exact ⟨t, by rw [List.length_cons, Nat.add_comm, runFor_add hfirst, hrun], hq, hout.trans hrest⟩

theorem PpRuns.runMoves_putsOut {q : PulsePattern} {levels : List Bool} {s : State}
    (h : PpRuns s.cfg.ppPreambleTicks s.pp levels q) :
    ∃ t, runMoves (List.replicate levels.length .ppTick) s = .next t ∧ t.pp = q ∧ PutsOut s t levels := by
  let scheduled : State :=
    { s with env := { s.env with sched := List.replicate levels.length .ppTick ++ s.env.sched } }
  obtain ⟨t, hrun, hq, hout⟩ := h.runFor_putsOut (s := scheduled) rfl rfl
  rw [runMoves_eq_runFor, List.length_replicate]
  exact ⟨t, hrun, hq, hout.levels, hout.frame⟩

/-! ### The levels of a frame (R94) -/

/-- The registers at the first tick of a frame, `retries` frames being left after it (R171, R178). -/
def PulsePattern.frameStart (payload : BitVec 24) (retries : Byte) : PulsePattern where
  phase := .preamble
  pre := 0
  bit := 0
  sub := 0
  payload := payload
  retries := retries
  run := true

/-- The levels of a frame after its preamble: the 24 bits of the payload, bit 23 first (R94). -/
def frameData (payload : BitVec 24) : List Bool :=
  (List.range' 0 24).flatMap fun k => dataBitLevels (payload.getLsbD (23 - k))

theorem frameLevels_eq (ticks : Nat) (payload : BitVec 24) :
    frameLevels ticks payload = preambleLevels ticks ++ frameData payload := by
  rw [frameLevels, List.range_eq_range', frameData]

/-- The levels of a bit are those of its four sub-phases (R175). -/
theorem dataBitLevels_eq (b : Bool) : dataBitLevels b = [ppLevel b 0, ppLevel b 1, ppLevel b 2, ppLevel b 3] := by
  cases b <;> rfl

theorem frameLevels_length {ticks : Nat} (hticks : ticks ≠ 0) (payload : BitVec 24) :
    (frameLevels ticks payload).length = ticks + 96 := by
  have hdata : (frameData payload).length = 96 := by simp [frameData, List.length_flatMap, dataBitLevels_eq]
  rw [frameLevels_eq, List.length_append, hdata, preambleLevels, List.length_cons, List.length_replicate]
  omega

theorem frames_length {ticks : Nat} (hticks : ticks ≠ 0) (payload : BitVec 24) (n : Nat) :
    (List.replicate n (frameLevels ticks payload)).flatten.length = n * (ticks + 96) := by
  simp [frameLevels_length hticks]

/-! ### The ticks of a frame (R176 to R178) -/

section
variable {ticks : BitVec 16} {p : PulsePattern}

/-- The rest of a preamble with `m + 1` ticks left: all but the very first tick are low (R176). -/
theorem PpRuns.preamble {m : Nat} (hrun : p.run = true) (hphase : p.phase = .preamble)
    (hleft : p.pre.toNat + (m + 1) = ticks.toNat) :
    PpRuns ticks p (decide (p.pre = 0) :: List.replicate m false) { p with pre := 0, phase := .data } := by
  induction m generalizing p with
  | zero =>
    have htick := PpTicks.preamble (ticks := ticks) hrun hphase
    rw [afterPreambleTick_of_le (by omega)] at htick
    exact .cons htick (.nil _)
  | succ m ih =>
    have htick := PpTicks.preamble (ticks := ticks) hrun hphase
    rw [afterPreambleTick_of_lt (by omega)] at htick
    have hlow : decide (p.pre + 1 = 0) = false := decide_eq_false (by bv_omega)
    have hfewer : (p.pre + 1).toNat + (m + 1) = ticks.toNat := by bv_omega
    have hrest := ih (p := { p with pre := p.pre + 1 }) hrun hphase hfewer
    rw [hlow] at hrest
    exact .cons htick hrest

/-- The four ticks of a data bit (R177). -/
theorem PpRuns.dataBit (hrun : p.run = true) (hphase : p.phase = .data) (hbit : p.bit ≤ 23) :
    PpRuns ticks { p with sub := 0 } (dataBitLevels (p.payload.getLsbD (23 - p.bit.toNat)))
      (afterDataTick { p with sub := 3 }) := by
  let level := ppLevel (p.payload.getLsbD (23 - p.bit.toNat))
  have htick (sub : BitVec 2) :
      PpTicks ticks { p with sub := sub } (level sub) (afterDataTick { p with sub := sub }) :=
    PpTicks.data hrun hphase hbit
  have hcount (sub : BitVec 2) (h : sub ≠ 3) :
      PpTicks ticks { p with sub := sub } (level sub) { p with sub := sub + 1 } :=
    afterDataTick_of_sub (p := { p with sub := sub }) h ▸ htick sub
  rw [dataBitLevels_eq]
  exact .cons (hcount 0 (by decide)) (.cons (hcount 1 (by decide)) (.cons (hcount 2 (by decide))
    (.cons (htick 3) (.nil _))))

/-- The rest of the data of a frame with `m + 1` bits left (R177). -/
theorem PpRuns.dataBits {m : Nat} (hrun : p.run = true) (hphase : p.phase = .data) (hleft : p.bit.toNat + m = 23) :
    PpRuns ticks { p with sub := 0 }
      ((List.range' p.bit.toNat (m + 1)).flatMap fun k => dataBitLevels (p.payload.getLsbD (23 - k)))
      (afterDataTick { p with bit := 23, sub := 3 }) := by
  induction m generalizing p with
  | zero =>
    have hlast : p.bit = 23 := by bv_omega
    have hbit := PpRuns.dataBit (ticks := ticks) hrun hphase (BitVec.le_of_eq hlast)
    simpa [hlast] using hbit
  | succ m ih =>
    have hlt : p.bit < 23 := by bv_omega
    have hsucc : (p.bit + 1).toNat = p.bit.toNat + 1 := by bv_omega
    have hbit := PpRuns.dataBit (ticks := ticks) hrun hphase (BitVec.le_of_lt hlt)
    rw [afterDataTick_of_bit (p := { p with sub := 3 }) rfl hlt] at hbit
    have hfewer : (p.bit + 1).toNat + m = 23 := by omega
    have hrest := ih (p := { p with bit := p.bit + 1 }) hrun hphase hfewer
    rw [hsucc] at hrest
    exact hbit.append hrest

end

/-- One frame, up to and with its last data tick, which decides what follows (R177, R178). -/
theorem PpRuns.frame {ticks : BitVec 16} (hticks : ticks ≠ 0) (payload : BitVec 24) (retries : Byte) :
    PpRuns ticks (.frameStart payload retries) (frameLevels ticks.toNat payload)
      (afterDataTick { PulsePattern.frameStart payload retries with phase := .data, bit := 23, sub := 3 }) := by
  have hleft : 0 + (ticks.toNat - 1 + 1) = ticks.toNat := by bv_omega
  have hpreamble := PpRuns.preamble (p := .frameStart payload retries) rfl rfl hleft
  have hdata := PpRuns.dataBits (ticks := ticks) (m := 23)
    (p := { PulsePattern.frameStart payload retries with phase := .data }) rfl rfl rfl
  rw [frameLevels_eq]
  exact hpreamble.append hdata

/-- All frames of a press, the last one stopping the timer (R178). -/
theorem PpRuns.frames {ticks : BitVec 16} (hticks : ticks ≠ 0) (payload : BitVec 24) (retries : Byte) :
    PpRuns ticks (.frameStart payload retries)
      (List.replicate (retries.toNat + 1) (frameLevels ticks.toNat payload)).flatten
      { PulsePattern.frameStart payload retries with phase := .idle, retries := 0, run := false } := by
  generalize hn : retries.toNat = n
  induction n generalizing retries with
  | zero =>
    obtain rfl : retries = 0 := by bv_omega
    have hframe := PpRuns.frame hticks payload 0
    rw [afterDataTick_of_no_retries rfl rfl rfl] at hframe
    rw [List.replicate_one, List.flatten_singleton]
    exact hframe
  | succ n ih =>
    have hne : retries ≠ 0 := by bv_omega
    have hframe := PpRuns.frame hticks payload retries
    rw [afterDataTick_of_retries rfl rfl hne] at hframe
    exact hframe.append (ih (retries - 1) (by bv_omega))

theorem PulsePattern.eq_frameStart {p : PulsePattern} (hrun : p.run = true) (hphase : p.phase = .preamble)
    (hpre : p.pre = 0) (hbit : p.bit = 0) (hsub : p.sub = 0) : p = .frameStart p.payload p.retries := by
  cases p
  simp_all [PulsePattern.frameStart]

/-- Settles O40: the levels of all frames are a run that ends stopped, and every shorter run ends with the timer
running. -/
theorem frameCountLaw : Obligations.FrameCountLaw := by
  intro s hticks hrun hphase hpre hbit hsub
  have hstart := PulsePattern.eq_frameStart hrun hphase hpre hbit hsub
  have hruns := PpRuns.frames hticks s.pp.payload s.pp.retries
  rw [← hstart] at hruns
  have hticksNat : s.cfg.ppPreambleTicks.toNat ≠ 0 := by bv_omega
  rw [← frames_length hticksNat s.pp.payload]
  refine ⟨fun n hn => ?_, ?_⟩
  · obtain ⟨q, hfront, hq⟩ := hruns.take hn
    obtain ⟨t, ht, rfl, -⟩ := hfront.runMoves_putsOut
    rw [List.length_take_of_le hn.le] at ht
    exact ⟨t, ht, hq⟩
  · obtain ⟨t, ht, hpp, hout⟩ := hruns.runMoves_putsOut
    refine ⟨t, ht, hout.levels, ?_⟩
    rw [← hpp]
    exact hout.frame

/-! ### Rising edges (R179) -/

theorem risingEdges_replicate_false (m : Nat) (levels : List Bool) :
    risingEdges (false :: (List.replicate m false ++ levels)) = risingEdges (false :: levels) := by
  induction m with
  | zero => rfl
  | succ m ih => simpa [List.replicate_succ, risingEdges] using ih

/-- The levels of a bit begin high, do not rise again and end low. -/
theorem risingEdges_dataBitLevels (level b : Bool) (levels : List Bool) :
    risingEdges (level :: (dataBitLevels b ++ levels)) = (!level).toNat + risingEdges (false :: levels) := by
  cases b <;> simp [dataBitLevels, risingEdges]

theorem risingEdges_dataBits (level : Bool) (bit : Nat → Bool) (k : Nat) (ks : List Nat) :
    risingEdges (level :: (k :: ks).flatMap fun k => dataBitLevels (bit k)) = (!level).toNat + ks.length := by
  induction ks generalizing level k with
  | nil => exact risingEdges_dataBitLevels level (bit k) []
  | cons next ks ih =>
    rw [List.flatMap_cons, risingEdges_dataBitLevels, ih, List.length_cons, Nat.add_comm ks.length]
    rfl

/-- Each of the 24 bits rises once, but for the first where it finds the pin high already. -/
theorem risingEdges_frameData (level : Bool) (payload : BitVec 24) :
    risingEdges (level :: frameData payload) = (!level).toNat + 23 :=
  risingEdges_dataBits level _ 0 (List.range' 1 23)

theorem risingEdges_frameLevels_of_two_le {ticks : Nat} (hticks : 2 ≤ ticks) (payload : BitVec 24) :
    risingEdges (false :: frameLevels ticks payload) = 25 := by
  obtain ⟨m, rfl⟩ := Nat.exists_eq_add_of_le' hticks
  calc risingEdges (false :: frameLevels (m + 2) payload)
    _ = 1 + (0 + risingEdges (false :: (List.replicate m false ++ frameData payload))) := by
      rw [frameLevels_eq]
      rfl
    _ = 25 := by rw [risingEdges_replicate_false, risingEdges_frameData]; rfl

theorem risingEdges_frameLevels_one (payload : BitVec 24) : risingEdges (false :: frameLevels 1 payload) = 24 := by
  calc risingEdges (false :: frameLevels 1 payload)
    _ = 1 + risingEdges (true :: frameData payload) := by
      rw [frameLevels_eq]
      rfl
    _ = 24 := by rw [risingEdges_frameData]; rfl

/-- Settles O41: the ticks of one frame write its levels, whose rising edges are those of the 24 bits and, where a low
tick parts it from the first of them, that of the preamble. -/
theorem frameRisingEdges : Obligations.FrameRisingEdges := by
  intro s hticks hrun hphase hpre hbit hsub
  have hstart := PulsePattern.eq_frameStart hrun hphase hpre hbit hsub
  have hruns := PpRuns.frame hticks s.pp.payload s.pp.retries
  have hlength : (frameLevels s.cfg.ppPreambleTicks.toNat s.pp.payload).length = frameTicks s.cfg :=
    frameLevels_length (by bv_omega) _
  rw [← hstart] at hruns
  obtain ⟨t, ht, -, hout⟩ := hruns.runMoves_putsOut
  rw [hlength] at ht
  refine ⟨t, _, ht, hout.levels, hlength, fun htwo => risingEdges_frameLevels_of_two_le htwo _, fun hone => ?_⟩
  rw [hone]
  exact risingEdges_frameLevels_one _

end Sys2Proof.Machine
end

section
/-! PROOFS. NOP (R190), and what an error response says of the state behind it (R211, R248). -/

namespace Sys2Proof.Machine

/-- Settles O9: every field of NOP's packet is zero, and its meaning is one response. -/
theorem nopOnlyAnswersOk : Obligations.NopOnlyAnswersOk := by
  refine ⟨by decide, by decide, fun _ => rfl, fun s hwait _ => ?_⟩
  simp [enabled, hwait]

/-- A command that ends with a run of Appends is not answered UNSUPPORTED (R112). -/
theorem Appended.toResult_not_unsupported {vs : List Bool} {s t : State} (h : (appendAll vs s).toResult = .next t)
    (data : Word) : t.obs.responses ≠ s.obs.responses ++ [⟨.unsupported, data⟩] := by
  obtain ⟨stg, code, hcode, -, -, rfl⟩ := Appended.toResult_next h
  rcases hcode with rfl | rfl <;> simp

theorem exec_seqPush_eq_appendAll (v : Bool) (s : State) : exec (.seqPush v) s = (appendAll [v] s).toResult := by
  rw [exec_seqPush, appendAll]
  cases append v s <;> rfl

/-- BS.SEND is answered neither UNSUPPORTED nor BUFFER_OVERFLOW (R121, R122). -/
theorem exec_bsSend_code {sp cp pw : Duration} {s t : State} {r : Response} (h : exec (.bsSend sp cp pw) s = .next t)
    (hr : t.obs.responses = s.obs.responses ++ [r]) : r.code ∈ [RespCode.ok, .busy, .hwError, .illegal] := by
  by_cases hsp : sp = 0
  · subst hsp
    obtain rfl := Host.Outcome.next.inj ((exec_bsSend_zero cp pw s).symm.trans h)
    obtain rfl : _ = r := by simpa using hr
    simp
  by_cases hfree : s.bs.token = false
  · obtain rfl := Host.Outcome.next.inj ((exec_bsSend_of_free hsp hfree).symm.trans h)
    obtain ⟨code, hcode, hone⟩ := acquire_responses sp cp pw s
    obtain rfl : _ = r := by simpa [hone] using hr
    rcases hcode with rfl | rfl <;> simp
  have hheld : s.bs.token = true := by simpa using hfree
  by_cases hbound : s.cfg.tokenWait = 0
  · obtain rfl := Host.Outcome.next.inj ((exec_bsSend_of_busy hsp hheld hbound).symm.trans h)
    obtain rfl : _ = r := by simpa using hr
    simp
  · obtain rfl := Host.Outcome.next.inj ((exec_bsSend_of_waits hsp hheld hbound).symm.trans h)
    simp at hr

/-- A command answered UNSUPPORTED changes nothing but the command port. -/
theorem exec_unsupported {i : Instr} {s t : State} {data : Word} (h : exec i s = .next t)
    (hr : t.obs.responses = s.obs.responses ++ [⟨.unsupported, data⟩]) : t = s.plusResponse .unsupported data := by
  rcases exec_cases h with ⟨code, data', rfl, -⟩ | ⟨_, _, -, -, -, hi⟩ | ⟨_, _, -, -, -, rfl⟩ |
    ⟨_, _, _, rfl, -⟩ | ⟨_, _, _, rfl, -⟩ | ⟨_, _, -, -, -, rfl⟩
  · obtain ⟨rfl, rfl⟩ : code = .unsupported ∧ data' = data := by simpa using hr
    rfl
  · rcases hi with rfl | ⟨v, rfl⟩ | ⟨al, ah, cmd, rfl⟩
    · obtain rfl := Host.Outcome.next.inj h
      simp at hr
    · exact absurd hr (Appended.toResult_not_unsupported ((exec_seqPush_eq_appendAll v s).symm.trans h) data)
    · exact absurd hr (Appended.toResult_not_unsupported h data)
  · exact absurd hr (Appended.toResult_not_unsupported h data)
  · exact absurd (exec_bsSend_code h hr) (by simp)
  · exact absurd (exec_bsSend_code h hr) (by simp)
  · simp at hr

/-- A command answered BUFFER_OVERFLOW changes, besides the command port, the staging sequence and the toggle only. -/
theorem exec_overflow {i : Instr} {s t : State} {data : Word} (h : exec i s = .next t)
    (hr : t.obs.responses = s.obs.responses ++ [⟨.bufferOverflow, data⟩]) :
    t = State.plusResponse { s with stg := t.stg, toggle := t.toggle } .bufferOverflow data := by
  rcases exec_cases h with ⟨code, data', rfl, -⟩ | ⟨_, code, -, -, rfl, -⟩ | ⟨_, code, -, -, rfl, -⟩ |
    ⟨_, _, _, rfl, -⟩ | ⟨_, _, _, rfl, -⟩ | ⟨_, _, -, -, -, rfl⟩
  · obtain ⟨rfl, rfl⟩ : code = .bufferOverflow ∧ data' = data := by simpa using hr
    rfl
  · obtain ⟨rfl, rfl⟩ : code = .bufferOverflow ∧ 0 = data := by simpa using hr
    rfl
  · obtain ⟨rfl, rfl⟩ : code = .bufferOverflow ∧ 0 = data := by simpa using hr
    rfl
  · exact absurd (exec_bsSend_code h hr) (by simp)
  · exact absurd (exec_bsSend_code h hr) (by simp)
  · simp at hr

/-- The two results of a press refused by its button or its encode are none that BS.SEND is answered. -/
theorem rejected_not_sent : ∀ code ∈ [RespCode.unsupported, .bufferOverflow],
    code ∉ [RespCode.ok, .busy, .hwError, .illegal] := by
  decide

end Sys2Proof.Machine
end

section
/-! PROOFS. The facade's two operations (log 14): waiting, by every way a wait can go on or end (R87, R123 to R125,
R241), and issuing a command, at an open port and at one that an earlier command holds shut. -/

namespace Sys2Proof.Machine

/-! ### The wait -/

theorem State.lastAnswer_of_wait {s : State} (h : s.bs.wait = true) : s.lastAnswer = .unanswered := if_pos h

theorem State.wait_of_lastAnswer_done {s : State} {code : RespCode} (h : s.lastAnswer = .done code) :
    s.bs.wait = false := by
  cases hwait : s.bs.wait with
  | false => rfl
  | true =>
    rw [State.lastAnswer_of_wait hwait] at h
    cases h

/-- After a RESET the host knows that its command was dropped (R241, log 6). -/
theorem lastAnswer_resetStep (s : State) : (resetStep s).lastAnswer = .dropped := rfl

/-- How a command that waits in state `w` has ended in state `t`: dropped by RESET, or answered by BS_GRANT or
BS_TIMEOUT (R124, R125, R241). -/
def WaitEnded (w t : State) : Prop :=
  (t.lastAnswer = .dropped ∧ ∃ u : State, takeMove .reset u = .next t) ∨
  ∃ code ∈ [RespCode.ok, .busy, .hwError],
    t.lastAnswer = .done code ∧ t.obs.responses = w.obs.responses ++ [⟨code, 0⟩]

theorem WaitEnded.of_same_responses {v w t : State} (h : WaitEnded w t) (heq : w.obs.responses = v.obs.responses) :
    WaitEnded v t := by
  rwa [WaitEnded, ← heq]

theorem WaitEnded.of_response {w t : State} {code : RespCode} (hcode : code ∈ [RespCode.ok, .busy, .hwError])
    (hopen : t.bs.wait = false) (hr : t.obs.responses = w.obs.responses ++ [⟨code, 0⟩]) : WaitEnded w t :=
  .inr ⟨code, hcode, State.lastAnswer_of_responded hopen hr, hr⟩

/-- A step taken while a command waits answers nothing and leaves it waiting, or ends the wait. -/
theorem takeMove_of_waiting {m : Move} {s t : State} (h : takeMove m s = .next t) (hwait : s.bs.wait = true) :
    (t.bs.wait = true ∧ t.obs.responses = s.obs.responses) ∨ (t.bs.wait = false ∧ WaitEnded s t) := by
  by_cases hm : m = .reset
  · subst hm
    obtain rfl := Host.Outcome.next.inj h
    exact .inr ⟨rfl, .inl ⟨lastAnswer_resetStep s, s, rfl⟩⟩
  obtain ⟨-, hends⟩ := takeMove_of_wait h hm hwait
  rcases takeMove_cases h with ⟨-, rfl⟩ | ⟨hen, hdo⟩
  · exact .inl ⟨hwait, rfl⟩
  cases m with
  | host => simp [enabled, hwait] at hen
  | bsTick | bsWork | ppTick =>
    obtain ⟨hlasts, -⟩ := hends.resolve_left (by simp)
    exact .inl ⟨hlasts, timer_responses (by simp) h⟩
  | bsGrant =>
    obtain rfl := Host.Outcome.next.inj hdo
    obtain ⟨code, hcode, hr⟩ := acquire_responses s.bs.waitSp s.bs.waitCp s.bs.waitPw s.endWait
    have hopen : (bsGrant s).bs.wait = false := acquire_wait ..
    exact .inr ⟨hopen, .of_response (by rcases hcode with rfl | rfl <;> simp) hopen hr⟩
  | bsTimeout =>
    obtain rfl := Host.Outcome.next.inj hdo
    exact .inr ⟨rfl, .of_response (code := .busy) (by simp) rfl rfl⟩
  | reset => exact absurd rfl hm

/-- A wait lasts, for as long as the steps do, or ends. -/
theorem untilAnswered_of_wait {k left : Nat} {w t : State} (hwait : w.bs.wait = true)
    (h : untilAnswered k w = .next (left, t)) :
    (t.bs.wait = true ∧ left = 0 ∧ t.obs.responses = w.obs.responses) ∨ (t.bs.wait = false ∧ WaitEnded w t) := by
  induction k generalizing w with
  | zero =>
    obtain ⟨rfl, rfl⟩ := Prod.mk.inj (Host.Outcome.next.inj h)
    exact .inl ⟨hwait, rfl, rfl⟩
  | succ k ih =>
    rw [untilAnswered_of_waiting k hwait] at h
    obtain ⟨u, hstep, hrest⟩ := andThen_next h
    rcases takeMove_of_waiting hstep (by simpa using hwait) with ⟨hlasts, hr⟩ | ⟨hopen, hended⟩
    · rw [State.afterMove_obs] at hr
      rcases ih hlasts hrest with ⟨hwaits, hleft, hr'⟩ | ⟨hopen, hended⟩
      · exact .inl ⟨hwaits, hleft, hr'.trans hr⟩
      · exact .inr ⟨hopen, hended.of_same_responses hr⟩
    · rw [untilAnswered_of_open k hopen] at hrest
      obtain ⟨rfl, rfl⟩ := Prod.mk.inj (Host.Outcome.next.inj hrest)
      exact .inr ⟨hopen, hended.of_same_responses (by rw [State.afterMove_obs])⟩

/-- A wait that its next step ends. -/
theorem untilAnswered_of_ending {w t : State} (k : Nat) (hwait : w.bs.wait = true) (hstep : step w = .next t)
    (hopen : t.bs.wait = false) : untilAnswered (k + 1) w = .next (k, t) := by
  rw [untilAnswered_of_waiting k hwait, hstep, andThen_of_next, untilAnswered_of_open k hopen]

section
variable {w : State} (k : Nat) (hwait : w.bs.wait = true)
include hwait

theorem untilAnswered_of_timeout (hnext : w.nextMove = .bsTimeout) :
    ∃ t : State, untilAnswered (k + 1) w = .next (k, t) ∧ t.lastAnswer = .done .busy := by
  have hstep : step w = .next (bsTimeout w.afterMove) := by
    rw [step, hnext, takeMove_of_enabled (by simpa [enabled] using hwait), perform]
  exact ⟨_, untilAnswered_of_ending k hwait hstep rfl, State.lastAnswer_of_responded (r := ⟨.busy, 0⟩) rfl rfl⟩

theorem untilAnswered_of_grant (hnext : w.nextMove = .bsGrant) (hfree : w.bs.token = false) :
    ∃ t : State, untilAnswered (k + 1) w = .next (k, t) ∧
      (w.chanAnswer = .ok → t.lastAnswer = .done .ok) ∧ (w.chanAnswer = .err → t.lastAnswer = .done .hwError) := by
  have hstep : step w = .next (bsGrant w.afterMove) := by
    rw [step, hnext, takeMove_of_enabled (by simp [enabled, hwait, hfree]), perform]
  have hopen : (bsGrant w.afterMove).bs.wait = false := acquire_wait ..
  have hr : (bsGrant w.afterMove).obs.responses =
      w.obs.responses ++ [⟨if w.chanAnswer = .ok then .ok else .hwError, 0⟩] := by
    simp [bsGrant, acquire_eq]
  have hanswer := State.lastAnswer_of_responded hopen hr
  refine ⟨_, untilAnswered_of_ending k hwait hstep hopen, fun hok => ?_, fun herr => ?_⟩
  · rw [hanswer, if_pos hok]
  · rw [hanswer, herr]
    rfl

theorem untilAnswered_of_reset (hnext : w.nextMove = .reset) :
    ∃ t : State, untilAnswered (k + 1) w = .next (k, t) ∧ t.lastAnswer = .dropped := by
  have hstep : step w = .next (resetStep w.afterMove) := by
    rw [step, hnext, takeMove_of_enabled rfl, perform]
  exact ⟨_, untilAnswered_of_ending k hwait hstep rfl, lastAnswer_resetStep _⟩

end

/-- Waiting keeps the configuration (R44). -/
theorem untilAnswered_cfg {k left : Nat} {s t : State} (h : untilAnswered k s = .next (left, t)) : t.cfg = s.cfg :=
  untilAnswered_keeps (P := fun u => u.cfg = s.cfg)
    (fun _ _ hcfg hstep => (takeMove_cfg hstep).trans ((State.afterMove_cfg _).trans hcfg)) rfl h

/-! ### A command at the open port -/

/-- The state in which an accepted command of a macro runs: its packet has been taken, the offered ones are still
offered (log 14). -/
def State.withAccepted (i : Instr) (s : State) : State :=
  { s with obs := { s.obs with accepted := s.obs.accepted ++ [encode i] } }

theorem acceptCommand_eq (i : Instr) (s : State) : acceptCommand i s = exec i (s.withAccepted i) :=
  runPacket_of_command (decodeOfEncode i) _

theorem issue_of_response {i : Instr} {s t : State} {r : Response} (k : Nat) (hopen : s.bs.wait = false)
    (h : exec i (s.withAccepted i) = .next t) (ht : t.bs.wait = false)
    (hr : t.obs.responses = s.obs.responses ++ [r]) : issue i k s = .next ⟨k, t, .done r.code⟩ :=
  issue_of_answered k hopen ((acceptCommand_eq i s).trans h) ht hr

/-- A command answered at once with no other effect. -/
theorem issue_of_plusResponse {i : Instr} {s : State} {code : RespCode} {data : Word} (k : Nat)
    (hopen : s.bs.wait = false)
    (h : exec i (s.withAccepted i) = .next ((s.withAccepted i).plusResponse code data)) :
    issue i k s = .next ⟨k, (s.withAccepted i).plusResponse code data, .done code⟩ :=
  issue_of_response k hopen h hopen rfl

/-- A command with a result that ends no wait was answered at once. -/
theorem issue_rejected {i : Instr} {k left : Nat} {s t : State} {code : RespCode} (hopen : s.bs.wait = false)
    (h : issue i k s = .next ⟨left, t, .done code⟩) (hcode : code ∈ [RespCode.unsupported, .bufferOverflow]) :
    left = k ∧ exec i (s.withAccepted i) = .next t ∧ ∃ data, t.obs.responses = s.obs.responses ++ [⟨code, data⟩] := by
  obtain ⟨u, hexec⟩ : ∃ u, exec i (s.withAccepted i) = .next u := by
    simp only [issue, untilAnswered_of_open k hopen, andThen_of_next, hopen, Bool.false_eq_true, if_false,
      acceptCommand_eq] at h
    obtain ⟨u, hexec, -⟩ := andThen_next h
    exact ⟨u, hexec⟩
  rcases exec_response hexec with ⟨r, hr, hu, -⟩ | ⟨-, hwait, -⟩
  · obtain ⟨rfl, rfl, hrcode⟩ : k = left ∧ u = t ∧ r.code = code := by
      simpa using (issue_of_response k hopen hexec (hu.trans hopen) hr).symm.trans h
    exact ⟨rfl, hexec, r.data, hrcode ▸ hr⟩
  · rw [issue_of_waiting k hopen ((acceptCommand_eq i s).trans hexec)] at h
    obtain ⟨⟨left', t'⟩, huntil, hreturn⟩ := andThen_next h
    obtain ⟨rfl, rfl, hlast⟩ : left' = left ∧ t' = t ∧ t'.lastAnswer = .done code := by simpa using hreturn
    rcases untilAnswered_of_wait hwait huntil with ⟨hwaits, -⟩ | ⟨-, ⟨hdropped, -⟩ | ⟨c, hc, hanswer, -⟩⟩
    · simp [State.wait_of_lastAnswer_done hlast] at hwaits
    · simp [hdropped] at hlast
    · obtain rfl : c = code := by simpa [hanswer] using hlast
      exact (rejected_not_sent c hcode (List.mem_append_left [RespCode.illegal] hc)).elim

/-- A command that has its result has left the port open. -/
theorem issue_open {i : Instr} {k : Nat} {s : State} {p : Press} {code : RespCode} (h : issue i k s = .next p)
    (hdone : p.result = .done code) : p.state.bs.wait = false := by
  obtain ⟨opened, -, h⟩ := andThen_next h
  split at h
  · obtain rfl := Host.Outcome.next.inj h
    cases hdone
  · obtain ⟨_, -, h⟩ := andThen_next h
    obtain ⟨_, -, h⟩ := andThen_next h
    obtain rfl := Host.Outcome.next.inj h
    exact State.wait_of_lastAnswer_done hdone

/-! ### A command at a port that an earlier command holds shut -/

/-- The command goes on from where the port opens. -/
theorem issue_of_opened {i : Instr} {k left : Nat} {s t : State} (h : untilAnswered k s = .next (left, t))
    (hopen : t.bs.wait = false) : issue i k s = issue i left t := by
  simp only [issue, h, untilAnswered_of_open left hopen]

/-- The steps are used up before the port opens: the command has not been issued. -/
theorem issue_of_shut {i : Instr} {k left : Nat} {s t : State} (h : untilAnswered k s = .next (left, t))
    (hshut : t.bs.wait = true) : issue i k s = .next ⟨left, t, .unanswered⟩ := by
  simp [issue, h, hshut]

/-! ### Commands in order -/

theorem issueAll_of_ok {i : Instr} {rest : List Instr} {k left : Nat} {s t : State}
    (h : issue i k s = .next ⟨left, t, .done .ok⟩) : issueAll (i :: rest) k s = issueAll rest left t := by
  simp [issueAll, h]

theorem issueAll_of_not_ok {i : Instr} {k : Nat} {s : State} {p : Press} (rest : List Instr)
    (h : issue i k s = .next p) (hp : p.result ≠ .done .ok) : issueAll (i :: rest) k s = .next p := by
  simp [issueAll, h, hp]

/-- A procedure that ends with a command ends with that command's result. -/
theorem issueAll_last (i : Instr) (k : Nat) (s : State) : issueAll [i] k s = issue i k s := by
  rw [issueAll]
  cases issue i k s with
  | next p =>
    obtain ⟨left, t, result⟩ := p
    by_cases hok : result = .done .ok <;> simp [issueAll, hok]
  | fault _ => rfl
  | refused _ => rfl

theorem issueAll_of_opened {i : Instr} {rest : List Instr} {k left : Nat} {s t : State}
    (h : untilAnswered k s = .next (left, t)) (hopen : t.bs.wait = false) :
    issueAll (i :: rest) k s = issueAll (i :: rest) left t := by
  simp only [issueAll, issue_of_opened h hopen]

end Sys2Proof.Machine
end

section
/-! PROOFS. The presses of the facade (R195 to R199): the encodes they begin with, what their BS.SEND is answered, and
the two statements about their results. -/

namespace Sys2Proof

/-! ### The configuration (R245) -/

theorem Config.necSlotPeriod_ne {cfg : Config} (h : cfg.wf = true) : cfg.necSlotPeriod ≠ 0 := by
  simp only [Config.wf, Bool.and_eq_true, decide_eq_true_eq] at h
  obtain ⟨⟨⟨⟨⟨-, hnec⟩, -⟩, -⟩, -⟩, -⟩ := h
  exact hnec

theorem Config.biphSlotPeriod_ne {cfg : Config} (h : cfg.wf = true) : cfg.biphSlotPeriod ≠ 0 := by
  simp only [Config.wf, Bool.and_eq_true, decide_eq_true_eq] at h
  obtain ⟨⟨⟨⟨-, hbiph⟩, -⟩, -⟩, -⟩ := h
  exact hbiph

end Sys2Proof

namespace Sys2Proof.Machine

/-! ### The encode -/

/-- The state after a macro's encode command `enc` has been answered OK, with the staging sequence `stg` and the toggle
it leaves. -/
def State.encoded (enc : Instr) (stg : Staging) (toggle : Bool) (s : State) : State :=
  State.plusResponse { s.withAccepted enc with stg := stg, toggle := toggle } .ok 0

/-- ENC.BIPH POWER of a press, with room for the frame (R160, R197). -/
theorem exec_encBiph_encoded {s : State} (hwf : Memory.wf s.cfg.cap s.stg.cells = true) (hcap : 28 ≤ s.cfg.cap.toNat) :
    ∃ stg : Staging,
      exec (.encBiph .power) (s.withAccepted (.encBiph .power)) =
        .next (s.encoded (.encBiph .power) stg !s.toggle) ∧
      stg.cells.take stg.fill.toNat =
        biphaseFrame (biphaseCode s.cfg.biphAddr s.cfg.biphCmdPower !s.toggle) := by
  have hfits : (biphaseFrame (biphaseCode s.cfg.biphAddr s.cfg.biphCmdPower !s.toggle)).length ≤ s.cfg.cap.toNat := by
    rwa [biphaseFrame_length]
  exact ⟨_, refill_of_fits (s := (s.withAccepted (.encBiph .power)).flipToggle) hfits,
    Staging.refill_take hwf hfits⟩

/-- ENC.NEC of a press, with room for the frame (R150, R196). -/
theorem exec_encNec_encoded {al ah cmd : Byte} {s : State} (hwf : Memory.wf s.cfg.cap s.stg.cells = true)
    (hcap : necLength al ah ≤ s.cfg.cap.toNat) :
    ∃ stg : Staging,
      exec (.encNec al ah cmd) (s.withAccepted (.encNec al ah cmd)) =
        .next (s.encoded (.encNec al ah cmd) stg s.toggle) ∧
      stg.cells.take stg.fill.toNat = necFrame al ah cmd := by
  rw [← necFrame_length al ah cmd] at hcap
  exact ⟨_, refill_of_fits (s := s.withAccepted (.encNec al ah cmd)) hcap, Staging.refill_take hwf hcap⟩

/-! ### A press whose encode is answered OK -/

section
variable {enc : Instr} {sp cp pw : Duration} {stg : Staging} {toggle : Bool} {s : State} (k : Nat)
  (henc : exec enc (s.withAccepted enc) = .next (s.encoded enc stg toggle))
  (hopen : s.bs.wait = false) (hsp : sp ≠ 0)
include henc hopen

/-- The press is its last command, issued at once. -/
theorem press_of_encoded (i : Instr) : issueAll [enc, i] k s = issue i k (s.encoded enc stg toggle) :=
  (issueAll_of_ok (issue_of_response k hopen henc hopen rfl)).trans (issueAll_last ..)

include hsp

theorem press_of_accepted (hfree : s.bs.token = false) (hok : s.chanAnswer = .ok) :
    ∃ t : State, issueAll [enc, .bsSend sp cp pw] k s = .next ⟨k, t, .done .ok⟩ ∧
      t.cfg = s.cfg ∧ t.toggle = toggle ∧ t.bs = (s.encoded enc stg toggle).acquired sp pw ∧
      t.obs.chanTrace = s.obs.chanTrace ++ [(.cfg cp, .ok)] := by
  let sent := (s.encoded enc stg toggle).withAccepted (.bsSend sp cp pw)
  have hsend := (exec_bsSend_of_free (s := sent) hsp hfree).trans
    (congrArg Host.Outcome.next (acquire_of_ok (s := sent) (cp := cp) (pw := pw) hok))
  have hpress := issue_of_response (s := s.encoded enc stg toggle) k hopen hsend hopen rfl
  exact ⟨_, (press_of_encoded k henc hopen _).trans hpress, rfl, rfl, rfl, rfl⟩

theorem press_of_refused (hfree : s.bs.token = false) (herr : s.chanAnswer = .err) :
    ∃ t : State, issueAll [enc, .bsSend sp cp pw] k s = .next ⟨k, t, .done .hwError⟩ ∧
      t.refusedAfter s cp ∧ t.cfg = s.cfg ∧ t.toggle = toggle ∧ t.stg = stg := by
  let sent := (s.encoded enc stg toggle).withAccepted (.bsSend sp cp pw)
  have hsend := (exec_bsSend_of_free (s := sent) hsp hfree).trans
    (congrArg Host.Outcome.next (acquire_of_err (s := sent) (cp := cp) (pw := pw) herr))
  have hpress := issue_of_response (s := s.encoded enc stg toggle) k hopen hsend hopen rfl
  refine ⟨_, (press_of_encoded k henc hopen _).trans hpress, ?_, rfl, rfl, rfl⟩
  simp [State.refusedAfter, sent, State.encoded, State.withAccepted, State.plusResponse]

theorem press_of_busy (hheld : s.bs.token = true) (hnowait : s.cfg.tokenWait = 0) :
    ∃ t : State, issueAll [enc, .bsSend sp cp pw] k s = .next ⟨k, t, .done .busy⟩ ∧
      t = { s with
        stg := t.stg
        toggle := toggle
        obs := { s.obs with accepted := t.obs.accepted, responses := t.obs.responses } } :=
  ⟨_, (press_of_encoded k henc hopen _).trans
    (issue_of_plusResponse k hopen (exec_bsSend_of_busy hsp hheld hnowait)), rfl⟩

theorem press_of_waits (hheld : s.bs.token = true) (hbound : s.cfg.tokenWait ≠ 0) :
    ∃ w : State,
      issueAll [enc, .bsSend sp cp pw] k s =
        (andThen (untilAnswered k w) fun a => .next ⟨a.1, a.2, a.2.lastAnswer⟩) ∧
      w.waitsAfter s sp cp pw ∧ w.cfg = s.cfg ∧ w.toggle = toggle ∧ w.stg = stg := by
  let sent := (s.encoded enc stg toggle).withAccepted (.bsSend sp cp pw)
  have hsend := (acceptCommand_eq _ _).trans (exec_bsSend_of_waits (s := sent) (cp := cp) (pw := pw) hsp hheld hbound)
  exact ⟨_, (press_of_encoded k henc hopen _).trans (issue_of_waiting k hopen hsend), rfl, rfl, rfl, rfl⟩

end

/-! ### The procedures as commands in order -/

theorem pressProjector_of_known {button : Button} {e : NecTriple} {s : State}
    (h : necTriple s.cfg.necButtons button = some e) (k : Nat) :
    pressProjector button k s =
      issueAll
        [.encNec e.addrLow e.addrHigh e.command,
         .bsSend s.cfg.necSlotPeriod s.cfg.necCarrierPeriod s.cfg.necCarrierPulse] k s := by
  simp only [pressProjector, h]

theorem pressProjector_of_unknown {button : Button} {s : State} (h : necTriple s.cfg.necButtons button = none)
    (k : Nat) : pressProjector button k s = .next ⟨k, s, .done .unsupported⟩ := by
  simp only [pressProjector, h]

theorem pressScreen_eq (button : Button) (k : Nat) (s : State) :
    pressScreen button k s = issue (.ppPress button) k s := issueAll_last ..

/-! ### A press that finds an earlier command unanswered (R87) -/

section
variable {k left : Nat} {s t : State} (button : Button) (h : untilAnswered k s = .next (left, t))
include h

/-- Every press goes on from where the port opens. -/
theorem press_of_opened (hopen : t.bs.wait = false) :
    pressDisplay button k s = pressDisplay button left t ∧ pressScreen button k s = pressScreen button left t ∧
      (necTriple s.cfg.necButtons button ≠ none → pressProjector button k s = pressProjector button left t) := by
  have hcfg := untilAnswered_cfg h
  refine ⟨?_, issueAll_of_opened h hopen, fun hknown => ?_⟩
  · rw [pressDisplay, pressDisplay, hcfg, issueAll_of_opened h hopen]
  · obtain ⟨e, he⟩ := Option.ne_none_iff_exists'.1 hknown
    rw [pressProjector_of_known he, pressProjector_of_known (hcfg.symm ▸ he), hcfg, issueAll_of_opened h hopen]

/-- No press issues a command before the port opens. -/
theorem press_of_shut (hshut : t.bs.wait = true) :
    pressDisplay button k s = .next ⟨left, t, .unanswered⟩ ∧ pressScreen button k s = .next ⟨left, t, .unanswered⟩ ∧
      (necTriple s.cfg.necButtons button ≠ none → pressProjector button k s = .next ⟨left, t, .unanswered⟩) := by
  have hfirst : ∀ i rest, issueAll (i :: rest) k s = .next ⟨left, t, .unanswered⟩ := fun i rest =>
    issueAll_of_not_ok rest (issue_of_shut h hshut) (by simp)
  refine ⟨hfirst .., hfirst .., fun hknown => ?_⟩
  obtain ⟨e, he⟩ := Option.ne_none_iff_exists'.1 hknown
  rw [pressProjector_of_known he, hfirst]

end

/-! ### A press answered UNSUPPORTED or BUFFER_OVERFLOW -/

/-- No BS.SEND of a press gives it one of these two results. -/
theorem issue_bsSend_not_rejected {sp cp pw : Duration} {k left : Nat} {s t : State} {code : RespCode}
    (hopen : s.bs.wait = false) (h : issue (.bsSend sp cp pw) k s = .next ⟨left, t, .done code⟩) :
    code ∉ [RespCode.unsupported, .bufferOverflow] := by
  intro hcode
  obtain ⟨-, hexec, _, hr⟩ := issue_rejected hopen h hcode
  exact rejected_not_sent code hcode (exec_bsSend_code hexec hr)

/-- A press of two commands with one of these two results: its encode was answered so. -/
theorem press_rejected {enc : Instr} {sp cp pw : Duration} {k left : Nat} {s t : State} {code : RespCode}
    (h : issueAll [enc, .bsSend sp cp pw] k s = .next ⟨left, t, .done code⟩)
    (hcode : code ∈ [RespCode.unsupported, .bufferOverflow]) : issue enc k s = .next ⟨left, t, .done code⟩ := by
  obtain ⟨p, hp, hrest⟩ := andThen_next h
  split at hrest
  · rename_i hok
    rw [issueAll_last] at hrest
    exact absurd hcode (issue_bsSend_not_rejected (issue_open hp hok) hrest)
  · exact hp.trans hrest

/-- A press with one of these two results: its button was unknown to it, or its first command was answered so. -/
theorem pressButton_rejected {device : Device} {button : Button} {k left : Nat} {s t : State} {code : RespCode}
    (h : pressButton device button k s = .next ⟨left, t, .done code⟩)
    (hcode : code ∈ [RespCode.unsupported, .bufferOverflow]) :
    (left = k ∧ t = s ∧ code = .unsupported) ∨ ∃ i, issue i k s = .next ⟨left, t, .done code⟩ := by
  cases device with
  | projector =>
    cases hknown : necTriple s.cfg.necButtons button with
    | none => exact .inl (by simpa [eq_comm] using (pressProjector_of_unknown hknown k).symm.trans h)
    | some e => exact .inr ⟨_, press_rejected ((pressProjector_of_known hknown k).symm.trans h) hcode⟩
  | display => exact .inr ⟨_, press_rejected h hcode⟩
  | screen => exact .inr ⟨_, (pressScreen_eq button k s).symm.trans h⟩

/-! ### The statements -/

/-- Settles O55: a command refused by its encode or its button changes nothing but the command port, the staging
sequence and the toggle, and a press ends with it. -/
theorem rejectedPressTouchesNoOutput : Obligations.RejectedPressTouchesNoOutput := by
  refine ⟨fun device button k left s t hopen h => ?_, fun device button k s hopen hbutton => ?_,
    fun device button k left s t hopen h => ?_, fun k s hwf hcfg hcap hopen hheld hnowait => ?_,
    fun button e k s hwf hcfg hknown hcap hopen hheld hnowait => ?_, fun button k s hopen hbutton hbusy => ?_⟩
  · rcases pressButton_rejected h (by simp) with ⟨hleft, rfl, -⟩ | ⟨i, hi⟩
    · exact ⟨hleft, rfl⟩
    · obtain ⟨hleft, hexec, data, hr⟩ := issue_rejected hopen hi (by simp)
      rw [exec_unsupported hexec hr]
      exact ⟨hleft, rfl⟩
  · rcases hbutton with ⟨rfl, hbutton⟩ | ⟨rfl, rfl⟩ | ⟨rfl, hunknown⟩
    · have hexec := encBiphUnsupportedChangesNothing button (s.withAccepted (.encBiph button)) hbutton
      exact ⟨_, issueAll_of_not_ok _ (issue_of_plusResponse k hopen hexec) (by simp)⟩
    · exact ⟨_, (pressScreen_eq ..).trans (issue_of_plusResponse k hopen (exec_ppPress_power _))⟩
    · exact ⟨s, pressProjector_of_unknown hunknown k⟩
  · rcases pressButton_rejected h (by simp) with ⟨-, -, hcode⟩ | ⟨i, hi⟩
    · cases hcode
    · obtain ⟨hleft, hexec, data, hr⟩ := issue_rejected hopen hi (by simp)
      rw [exec_overflow hexec hr]
      exact ⟨hleft, rfl⟩
  · obtain ⟨stg, henc, -⟩ := exec_encBiph_encoded hwf hcap
    exact press_of_busy k henc hopen (Config.biphSlotPeriod_ne hcfg) hheld hnowait
  · obtain ⟨stg, henc, -⟩ := exec_encNec_encoded (cmd := e.command) hwf hcap
    rw [pressProjector_of_known hknown]
    exact press_of_busy k henc hopen (Config.necSlotPeriod_ne hcfg) hheld hnowait
  · obtain ⟨key, hkey⟩ := keyCode_isSome s.cfg hbutton
    have hexec := exec_ppPress_of_busy (s := s.withAccepted (.ppPress button)) hkey hbusy
    exact ⟨_, (pressScreen_eq ..).trans (issue_of_plusResponse k hopen hexec), rfl⟩

/-- Settles O56: a press is its encode and its BS.SEND issued in order at the open port, and its BS.SEND is answered by
the acquisition step or by the step that ends its wait. -/
theorem pressResultIsItsLastResponse : Obligations.PressResultIsItsLastResponse := by
  refine ⟨fun k s hwf hcfg hcap hopen hfree hok => ?_, fun button e k s hwf hcfg hknown hcap hopen hfree hok => ?_,
    fun button key k s hkey hopen hidle => ?_,
    fun k s hwf hcfg hcap hopen hfree herr => ?_, fun button e k s hwf hcfg hknown hcap hopen hfree herr => ?_,
    fun k s hwf hcfg hcap hopen hheld hbound => ?_, fun button e k s hwf hcfg hknown hcap hopen hheld hbound => ?_,
    fun k left w t hwait h => ?_, fun k w hwait => ⟨untilAnswered_of_timeout k hwait,
      untilAnswered_of_grant k hwait, untilAnswered_of_reset k hwait⟩,
    fun button k left s t _ h => ⟨press_of_opened button h, press_of_shut button h⟩⟩
  · obtain ⟨stg, henc, hframe⟩ := exec_encBiph_encoded hwf hcap
    obtain ⟨t, hpress, hcfgt, htoggle, hbs, htrace⟩ :=
      press_of_accepted k henc hopen (Config.biphSlotPeriod_ne hcfg) hfree hok
    refine ⟨t, hpress, htoggle, ?_⟩
    rw [State.powerCode, hcfgt, htoggle, hbs]
    exact ⟨rfl, rfl, rfl, hframe, rfl, rfl, htrace⟩
  · obtain ⟨stg, henc, hframe⟩ := exec_encNec_encoded (cmd := e.command) hwf hcap
    obtain ⟨t, hpress, -, htoggle, hbs, htrace⟩ :=
      press_of_accepted k henc hopen (Config.necSlotPeriod_ne hcfg) hfree hok
    refine ⟨t, (pressProjector_of_known hknown k).trans hpress, htoggle, ?_⟩
    rw [hbs]
    exact ⟨rfl, rfl, rfl, hframe, rfl, rfl, htrace⟩
  · have hexec := exec_ppPress_of_idle (s := s.withAccepted (.ppPress button)) hkey hidle
    exact ⟨_, (pressScreen_eq ..).trans (issue_of_response k hopen hexec hopen rfl), rfl, rfl, rfl, rfl, rfl, rfl⟩
  · obtain ⟨stg, henc, hframe⟩ := exec_encBiph_encoded hwf hcap
    obtain ⟨t, hpress, hrefused, hcfgt, htoggle, hstg⟩ :=
      press_of_refused k henc hopen (Config.biphSlotPeriod_ne hcfg) hfree herr
    refine ⟨t, hpress, hrefused, htoggle, ?_⟩
    rw [State.staged, State.powerCode, hcfgt, htoggle, hstg, hframe]
  · obtain ⟨stg, henc, hframe⟩ := exec_encNec_encoded (cmd := e.command) hwf hcap
    obtain ⟨t, hpress, hrefused, -, htoggle, hstg⟩ :=
      press_of_refused k henc hopen (Config.necSlotPeriod_ne hcfg) hfree herr
    refine ⟨t, (pressProjector_of_known hknown k).trans hpress, hrefused, htoggle, ?_⟩
    rw [State.staged, hstg, hframe]
  · obtain ⟨stg, henc, hframe⟩ := exec_encBiph_encoded hwf hcap
    obtain ⟨w, hpress, hwaits, hcfgw, htoggle, hstg⟩ :=
      press_of_waits k henc hopen (Config.biphSlotPeriod_ne hcfg) hheld hbound
    refine ⟨w, hwaits, htoggle, ?_, hpress⟩
    rw [State.staged, State.powerCode, hcfgw, htoggle, hstg, hframe]
  · obtain ⟨stg, henc, hframe⟩ := exec_encNec_encoded (cmd := e.command) hwf hcap
    obtain ⟨w, hpress, hwaits, -, htoggle, hstg⟩ :=
      press_of_waits k henc hopen (Config.necSlotPeriod_ne hcfg) hheld hbound
    refine ⟨w, hwaits, htoggle, ?_, (pressProjector_of_known hknown k).trans hpress⟩
    rw [State.staged, hstg, hframe]
  · rcases untilAnswered_of_wait hwait h with ⟨hlasts, hleft, hr⟩ | ⟨-, hended⟩
    · exact .inl ⟨State.lastAnswer_of_wait hlasts, hleft, hr⟩
    · exact .inr hended

end Sys2Proof.Machine
end

section
/-! PROOFS. No step stops where the invariants hold (R210): the three faults are an access outside a slot buffer and a
pulse-pattern tick outside its phases (log 7, log 8), and R39 (1), (2), (6) and (7) exclude them. -/

namespace Sys2Proof.Machine

/-! ### Commands -/

/-- A refill starts from the empty sequence, so it is answered from every state (R110, R112). -/
theorem refill_answers (vs : List Bool) (s : State) : ∃ t, (appendAll vs s.clearStaging).toResult = .next t := by
  rcases appendAll_refill vs s with ⟨-, hrun⟩ | ⟨-, hrun⟩ <;> rw [hrun]
  · exact ⟨_, rfl⟩
  · exact ⟨_, rfl⟩

/-- With `stg_fill` inside a buffer of `CAP` cells every command is answered or waits: an Append finds a cell or the
buffer full, and a staged index names a cell (R60, R112). -/
theorem exec_answers {s : State} (hwf : Memory.wf s.cfg.cap s.stg.cells = true) (hfill : s.stg.fill ≤ s.cfg.cap)
    (i : Instr) : ∃ t, exec i s = .next t := by
  cases i with
  | nop => exact ⟨_, rfl⟩
  | rd reg =>
    cases hread : s.statusWindow reg with
    | some w => exact ⟨_, exec_rd_of_window hread⟩
    | none => exact ⟨_, exec_rd_outside hread⟩
  | seqClr => exact ⟨_, exec_seqClr s⟩
  | seqPush v =>
    by_cases hfull : s.stg.fill = s.cfg.cap
    · exact ⟨_, exec_seqPush_of_full v hfull⟩
    · exact ⟨_, exec_seqPush_of_lt v (BitVec.lt_of_le_ne hfill hfull)⟩
  | seqGet idx =>
    by_cases hlt : idx < s.stg.fill
    · obtain ⟨v, hslot⟩ := readSlot_isSome hwf (Nat.lt_of_lt_of_le hlt hfill)
      exact ⟨_, exec_seqGet_of_slot hlt hslot⟩
    · exact ⟨_, exec_seqGet_of_le (BitVec.not_lt.1 hlt)⟩
  | encNec al ah cmd => exact refill_answers _ s
  | encBiph button =>
    cases button with
    | power => exact refill_answers _ s.flipToggle
    | up | down | cancel => exact ⟨_, rfl⟩
  | bsSend sp cp pw =>
    by_cases hsp : sp = 0
    · exact ⟨_, hsp ▸ exec_bsSend_zero cp pw s⟩
    cases htoken : s.bs.token with
    | false => exact ⟨_, exec_bsSend_of_free hsp htoken⟩
    | true =>
      by_cases hbound : s.cfg.tokenWait = 0
      · exact ⟨_, exec_bsSend_of_busy hsp htoken hbound⟩
      · exact ⟨_, exec_bsSend_of_waits hsp htoken hbound⟩
  | ppPress button =>
    by_cases hpower : button = .power
    · exact ⟨_, hpower ▸ exec_ppPress_power s⟩
    obtain ⟨key, hkey⟩ := keyCode_isSome s.cfg hpower
    by_cases hidle : s.pp.phase = .idle
    · exact ⟨_, exec_ppPress_of_idle hkey hidle⟩
    · exact ⟨_, exec_ppPress_of_busy hkey hidle⟩

/-! ### Agents -/

section
variable {s : State} (h : Inv s)
include h

/-- The port answers an illegal packet and runs every other; taking the packet leaves the staging buffer (R84, R87). -/
theorem Inv.hostStep_answers : ∃ t, Machine.hostStep s = .next t := by
  cases hport : s.env.port with
  | nil => exact ⟨s, by simp only [Machine.hostStep, hport]⟩
  | cons p rest =>
    rw [hostStep_of_port hport]
    cases hdecode : decode p with
    | illegal why => exact ⟨_, runPacket_of_illegal hdecode _⟩
    | command i =>
      rw [runPacket_of_command hdecode]
      exact exec_answers (s := s.takePacket p rest) h.stgWf h.fillLe i

/-- A slot step reads below `bs_len`, and so inside the active buffer (R39 (1), R128). -/
theorem Inv.bsWork_answers : ∃ t, Machine.bsWork s = .next t := by
  by_cases hlt : s.bs.cursor < s.bs.len
  · obtain ⟨v, hslot⟩ := readSlot_isSome h.actWf (Nat.lt_of_lt_of_le hlt h.lenLe)
    exact ⟨_, bsWork_of_slot hlt hslot⟩
  · exact ⟨_, bsWork_of_end (BitVec.not_lt.1 hlt)⟩

/-- A running timer ticks in the preamble or at a data bit below 24 (R39 (6), (7), R174). -/
theorem Inv.ppTick_answers (hrun : s.pp.run = true) : ∃ t, Machine.ppTick s = .next t := by
  cases hphase : s.pp.phase with
  | idle => exact absurd hphase (h.ppRun.1 hrun)
  | preamble => exact ⟨_, ppTick_of_preamble hphase⟩
  | data =>
    obtain ⟨-, hbit⟩ := h.ppData hphase
    exact ⟨_, ppTick_of_data hphase (by bv_omega)⟩

/-- Every chosen step answers a next state. -/
theorem Inv.takeMove_answers (m : Move) : ∃ t, Machine.takeMove m s = .next t := by
  cases hen : enabled m s with
  | false => exact ⟨s, by simp [Machine.takeMove, hen]⟩
  | true =>
    rw [takeMove_of_enabled hen]
    cases m with
    | host => exact h.hostStep_answers
    | bsWork => exact h.bsWork_answers
    | ppTick => exact h.ppTick_answers hen
    | bsTick | bsGrant | bsTimeout | reset => exact ⟨_, rfl⟩

end

/-- Settles O48: choosing the step keeps the invariants, and where they hold every chosen step answers. -/
theorem noStepStops : Obligations.NoStepStops := fun s h => h.afterMove.takeMove_answers s.nextMove

end Sys2Proof.Machine
end

section
/-! PROOFS. One step seen by the timers: what it does to the transmission in flight, and to the number of PP_TICKs
that a press has left (R126 to R129, R171 to R178). -/

namespace Sys2Proof.Machine

/-! ### The transmission in flight -/

/-- What step `m` from `s` to `t` does to the transmission: an acquisition sets it up, RESET or the end step leaves the
token free, BS_TICK and the slot step move it on, and every other step leaves all but the wait registers. -/
inductive BurstStep (m : Move) (s t : State) : Prop where
  | acquires (free : s.bs.token = false) (held : t.bs.token = true) (cursor : t.bs.cursor = 0)
      (pend : t.bs.pend = false)
  | ends (free : t.bs.token = false)
  | ticks (move : m = .bsTick) (bs : t.bs = { s.bs with pend := true })
  | slot (move : m = .bsWork) (pend : s.bs.pend = true) (below : s.bs.cursor < s.bs.len)
      (bs : t.bs = { s.bs with pend := false, cursor := s.bs.cursor + 1 })
  | keeps (idle : m = .bsTick ∨ m = .bsWork → enabled m s = false)
      (bs : t.bs =
        { s.bs with
          wait := t.bs.wait, waitSp := t.bs.waitSp, waitCp := t.bs.waitCp, waitPw := t.bs.waitPw })

/-- The acquisition step sets up a transmission with no work pending, or leaves the sequencer (R122). -/
theorem BurstStep.of_acquire {m : Move} {s u : State} {sp cp pw : Duration} (hm : ¬ (m = .bsTick ∨ m = .bsWork))
    (hfree : s.bs.token = false)
    (hu : u.bs =
      { s.bs with
        wait := u.bs.wait, waitSp := u.bs.waitSp, waitCp := u.bs.waitCp, waitPw := u.bs.waitPw }) :
    BurstStep m s (acquire sp cp pw u) := by
  rcases acquire_cases sp cp pw u with ⟨-, he⟩ | ⟨-, he⟩ <;> rw [he]
  · exact .acquires hfree rfl rfl rfl
  · exact .keeps (fun h => absurd h hm) hu

/-- Every step is one of these. -/
theorem takeMove_burstStep {m : Move} {s t : State} (h : takeMove m s = .next t) : BurstStep m s t := by
  rcases takeMove_cases h with ⟨hdis, rfl⟩ | ⟨hen, hdo⟩
  · exact .keeps (fun _ => hdis) rfl
  cases m with
  | host =>
    rcases takeMove_host_cases h with ⟨-, -, hbs⟩ | ⟨-, p, rest, i, -, hexec⟩
    · exact .keeps (by simp) (by rw [hbs])
    rcases exec_transmission hexec with ⟨-, -, hbs⟩ | ⟨_, _, _, -, hfree, rfl⟩
    · exact .keeps (by simp) hbs
    · exact .of_acquire (by simp) hfree rfl
  | bsTick =>
    obtain rfl := Host.Outcome.next.inj hdo
    exact .ticks rfl (by rw [bsTick_eq])
  | bsWork =>
    rcases bsWork_cases hdo with ⟨v, hlt, -, rfl⟩ | ⟨-, rfl⟩
    · exact .slot rfl hen hlt (by rw [slotStep_eq]; rfl)
    · exact .ends (by rw [endStep_eq])
  | bsGrant =>
    obtain rfl := Host.Outcome.next.inj hdo
    obtain ⟨-, hfree⟩ : s.bs.wait = true ∧ s.bs.token = false := by simpa [enabled] using hen
    exact .of_acquire (by simp) hfree rfl
  | bsTimeout =>
    obtain rfl := Host.Outcome.next.inj hdo
    exact .keeps (by simp) rfl
  | ppTick =>
    obtain ⟨_, ht⟩ := ppTick_frame hdo
    exact .keeps (by simp) (by rw [ht])
  | reset =>
    obtain rfl := Host.Outcome.next.inj hdo
    exact .ends rfl

/-! ### How far a press has come (R33, R35, R179) -/

theorem State.framePosition_of_preamble {s : State} (h : s.pp.phase = .preamble) :
    s.framePosition = s.pp.pre.toNat := by
  simp only [State.framePosition, h]

theorem State.framePosition_of_data {s : State} (h : s.pp.phase = .data) :
    s.framePosition = s.cfg.ppPreambleTicks.toNat + 4 * s.pp.bit.toNat + s.pp.sub.toNat := by
  simp only [State.framePosition, h]

/-- How many PP_TICKs are still to come: those of the present frame and of the frames after it (R178, R179). -/
def State.pressTicksLeft (s : State) : Nat := (s.pp.retries.toNat + 1) * frameTicks s.cfg - s.framePosition

/-- The present frame is not complete. -/
theorem Inv.framePosition_lt {s : State} (h : Inv s) : s.framePosition < frameTicks s.cfg := by
  cases hphase : s.pp.phase with
  | idle => simp [State.framePosition, hphase, frameTicks]
  | preamble =>
    obtain ⟨hpre, -, -⟩ := h.ppPreamble hphase
    rw [State.framePosition_of_preamble hphase, frameTicks]
    omega
  | data =>
    obtain ⟨-, hbit⟩ := h.ppData hphase
    rw [State.framePosition_of_data hphase, frameTicks]
    bv_omega

/-- The ticks left and those put out are the ticks of the frames from the present one on. -/
theorem Inv.pressTicksLeft_add {s : State} (h : Inv s) :
    s.pressTicksLeft + s.framePosition = s.pp.retries.toNat * frameTicks s.cfg + frameTicks s.cfg := by
  have hpos := h.framePosition_lt
  rw [State.pressTicksLeft, Nat.succ_mul]
  omega

/-- A press starts with all its ticks to come (R171). -/
theorem State.pressTicksLeft_startFrames {s : State} {key : Byte} (h : s.pp = startFrames s.cfg key) :
    s.pressTicksLeft = allPressTicks s.cfg := by
  simp [State.pressTicksLeft, State.framePosition, h, startFrames, allPressTicks]

/-! ### PP_TICK -/

/-- What the counters do in a PP_TICK: one place further in the frame, the first place of the next frame, or the stop
after the last place of the last frame (R176 to R178). -/
theorem Inv.ppTick_framePosition {s t : State} (h : Inv s) (hdo : Machine.ppTick s = .next t) :
    (t.pp.run = true ∧ t.pp.retries = s.pp.retries ∧ t.framePosition = s.framePosition + 1) ∨
    (t.pp.run = true ∧ t.pp.retries.toNat + 1 = s.pp.retries.toNat ∧ t.framePosition = 0 ∧
      s.framePosition + 1 = frameTicks s.cfg) ∨
    (t.pp.run = false ∧ s.pp.retries.toNat = 0 ∧ s.framePosition + 1 = frameTicks s.cfg) := by
  have hcfg (level : Bool) (p : PulsePattern) : (s.ppOutput level p).cfg = s.cfg := by rw [ppOutput_eq]
  rcases ppTick_cases hdo with ⟨hphase, rfl⟩ | ⟨hphase, hbit, rfl⟩
  · have hrun := h.ppRun.2 (by simp [hphase])
    obtain ⟨hlt, hbit, hsub⟩ := h.ppPreamble hphase
    left
    rw [State.framePosition_of_preamble hphase]
    by_cases hmore : s.pp.pre.toNat + 1 < s.cfg.ppPreambleTicks.toNat
    · rw [afterPreambleTick_of_lt hmore, State.framePosition_of_preamble (by exact hphase)]
      exact ⟨hrun, rfl, toNat_succ_of_lt hlt⟩
    · rw [afterPreambleTick_of_le (Nat.not_lt.1 hmore), State.framePosition_of_data rfl, hcfg]
      refine ⟨hrun, rfl, ?_⟩
      simp [hbit, hsub]
      omega
  · have hrun := h.ppRun.2 (by simp [hphase])
    rw [State.framePosition_of_data hphase, frameTicks]
    by_cases hsub : s.pp.sub = 3
    case neg =>
      rw [afterDataTick_of_sub hsub, State.framePosition_of_data (by exact hphase), hcfg]
      exact .inl ⟨hrun, rfl, by simp only [State.ppOutput_pp]; bv_omega⟩
    by_cases hlast : s.pp.bit = 23
    case neg =>
      have hlt : s.pp.bit < 23 := by bv_omega
      rw [afterDataTick_of_bit hsub hlt, State.framePosition_of_data (by exact hphase), hcfg]
      exact .inl ⟨hrun, rfl, by simp only [State.ppOutput_pp]; bv_omega⟩
    have hend : s.cfg.ppPreambleTicks.toNat + 4 * s.pp.bit.toNat + s.pp.sub.toNat + 1 =
        s.cfg.ppPreambleTicks.toNat + 96 := by
      simp [hlast, hsub]
    by_cases hretries : s.pp.retries = 0
    · rw [afterDataTick_of_no_retries hsub hlast hretries]
      exact .inr (.inr ⟨rfl, by rw [hretries]; rfl, hend⟩)
    · obtain ⟨hpre, -⟩ := h.ppData hphase
      rw [afterDataTick_of_retries hsub hlast hretries, State.framePosition_of_preamble rfl]
      exact .inr (.inl ⟨hrun, by simp only [State.ppOutput_pp]; bv_omega, by simp [hpre], hend⟩)

/-- A PP_TICK counts one of the ticks left, and the one that stops the timer is the last (R178, R179). -/
theorem Inv.ppTick_pressTicksLeft {s t : State} (h : Inv s) (hdo : Machine.ppTick s = .next t) :
    (t.pp.run = true ∧ t.pressTicksLeft + 1 = s.pressTicksLeft) ∨ (t.pp.run = false ∧ s.pressTicksLeft = 1) := by
  have hcfg : t.cfg = s.cfg := by
    obtain ⟨_, ht⟩ := ppTick_frame hdo
    rw [ht]
  have hleft := h.pressTicksLeft_add
  rcases h.ppTick_framePosition hdo with ⟨hrun, hretries, hpos⟩ | ⟨hrun, hretries, hpos, hend⟩ |
    ⟨hstop, hretries, hend⟩
  · have hlt := h.framePosition_lt
    refine .inl ⟨hrun, ?_⟩
    rw [State.pressTicksLeft, hcfg, hretries, hpos, Nat.succ_mul]
    omega
  · refine .inl ⟨hrun, ?_⟩
    rw [State.pressTicksLeft, hcfg, hretries, hpos]
    omega
  · refine .inr ⟨hstop, ?_⟩
    rw [hretries, Nat.zero_mul] at hleft
    omega

/-! ### The press under way -/

/-- What step `m` from `s` to `t` does to the press under way: PP.PRESS starts one with all its ticks to come, RESET
or the last PP_TICK stops the timer, the other PP_TICKs count one tick each, and every other step leaves it. -/
inductive PressStep (m : Move) (s t : State) : Prop where
  | starts (stopped : s.pp.run = false) (started : t.pp.run = true) (left : t.pressTicksLeft = allPressTicks t.cfg)
  | stops (stopped : t.pp.run = false)
  | ticks (move : m = .ppTick) (run : s.pp.run = true) (left : t.pressTicksLeft + 1 = s.pressTicksLeft)
  | keeps (idle : m = .ppTick → enabled m s = false) (run : t.pp.run = s.pp.run)
      (left : t.pressTicksLeft = s.pressTicksLeft)

/-- Every step is one of these where the invariants hold. -/
theorem Inv.takeMove_pressStep {m : Move} {s t : State} (h : Inv s) (hdo : Machine.takeMove m s = .next t) :
    PressStep m s t := by
  have hcfg := takeMove_cfg hdo
  have hsame (idle : m = .ppTick → enabled m s = false) (hpp : t.pp = s.pp) : PressStep m s t :=
    .keeps idle (by rw [hpp]) (by simp only [State.pressTicksLeft, State.framePosition, hpp, hcfg])
  by_cases hreset : m = .reset
  · subst hreset
    obtain rfl := Host.Outcome.next.inj hdo
    exact .stops rfl
  by_cases htick : m = .ppTick
  · subst htick
    rcases takeMove_cases hdo with ⟨hdis, rfl⟩ | ⟨hen, hperform⟩
    · exact hsame (fun _ => hdis) rfl
    rcases h.ppTick_pressTicksLeft hperform with ⟨-, hleft⟩ | ⟨hstop, -⟩
    · exact .ticks rfl hen hleft
    · exact .stops hstop
  rcases takeMove_pp_cases hdo hreset with hpp | ⟨-, -, _, key, -, -, hidle, hpp⟩ | ⟨hmove, -⟩
  · exact hsame (fun hmove => absurd hmove htick) hpp
  · have hstopped : s.pp.run = false := by simpa [hidle] using h.ppRun
    exact .starts hstopped (by rw [hpp]; rfl) (State.pressTicksLeft_startFrames (hcfg ▸ hpp))
  · exact absurd hmove htick

end Sys2Proof.Machine
end

section
/-! PROOFS. Timed runs (R250, R255 to R259): what a step that the timing rules allow says of the clock, and that it
keeps the clock's invariant; when work units, the release of the token and the last PP_TICK happen. -/

namespace Sys2Proof.Machine

/-! ### One step of a timed run -/

/-- What the proofs use of an admitted step: it happens, and no later than what is due (R250, R255, R258). -/
structure TimedStep (c c' : Clock) (s s' : State) (time : Nat) (m : Move) : Prop where
  enabled : enabled m s = true
  takes : takeMove m s = .next s'
  clock : c' = c.after s s' time m
  notPast : c.now ≤ time
  slotTickDue : s.bs.run = true → time ≤ c.nextSlotTick s
  workDue : s.bs.pend = true → time < c.nextSlotTick s
  atItsTime : c.atItsTime s time m = true

theorem TimedStep.of_eq {c c' : Clock} {s s' : State} {time : Nat} {m : Move}
    (h : timedStep c s time m = some (c', s')) : TimedStep c c' s s' time m := by
  rw [timedStep, Option.ite_none_right_eq_some] at h
  obtain ⟨hadmits, h⟩ := h
  rw [Clock.admits, Bool.and_eq_true, Bool.and_eq_true] at hadmits
  obtain ⟨⟨hen, hmissed⟩, hown⟩ := hadmits
  have hdue : c.now ≤ time ∧ (s.bs.run = true → time ≤ c.nextSlotTick s) ∧
      (s.bs.pend = true → time < c.nextSlotTick s) := by
    simp only [Clock.nothingMissed, Bool.and_eq_true, Bool.or_eq_true, Bool.not_eq_true', decide_eq_true_eq]
      at hmissed
    obtain ⟨⟨⟨⟨⟨hnow, htick⟩, hwork⟩, -⟩, -⟩, -⟩ := hmissed
    exact ⟨hnow, fun hrun => by simpa [hrun] using htick, fun hpend => by simpa [hpend] using hwork⟩
  obtain ⟨hnow, htick, hwork⟩ := hdue
  cases hperform : perform m s with
  | next u =>
    rw [hperform] at h
    obtain ⟨rfl, rfl⟩ := Prod.mk.inj (Option.some.inj h)
    exact ⟨hen, (takeMove_of_enabled hen).trans hperform, rfl, hnow, htick, hwork, hown⟩
  | fault _ | refused _ =>
    rw [hperform] at h
    cases h

section
variable {c c' : Clock} {s s' : State} {time : Nat}

theorem TimedStep.slotTickTime (h : TimedStep c c' s s' time .bsTick) : time = c.nextSlotTick s :=
  of_decide_eq_true h.atItsTime

/-- A tick over pending work would be both at and before its time (R250). -/
theorem TimedStep.not_pending_of_tick (h : TimedStep c c' s s' time .bsTick) : s.bs.pend = false := by
  by_contra hpend
  exact absurd h.slotTickTime (Nat.ne_of_lt (h.workDue (by simpa using hpend)))

end

/-- Settles O59: RESET clears the log, and no admitted tick finds work pending. -/
theorem timedRunsNeverOverrun : Obligations.TimedRunsNeverOverrun := by
  intro c c' s s' time m hstep hover
  have h := TimedStep.of_eq hstep
  by_cases hreset : m = .reset
  · subst hreset
    obtain rfl := Host.Outcome.next.inj h.takes
    cases hover
  by_cases htick : m = .bsTick
  · subst htick
    simpa [takeMove_errlog h.takes hreset, h.not_pending_of_tick] using hover
  · simpa [takeMove_errlog h.takes hreset, htick] using hover

/-! ### The clock's invariant (R255, R258) -/

/-- The pulse-pattern timer's part of the invariant: the ticks put out and the ticks left are all ticks of a press. -/
theorem Inv.ppTicks_iff {s : State} (h : Inv s) (n : Nat) :
    n + s.pp.retries.toNat * frameTicks s.cfg =
        s.cfg.ppRetryDefault.toNat * frameTicks s.cfg + s.framePosition ↔
      n + s.pressTicksLeft = allPressTicks s.cfg := by
  have hleft := h.pressTicksLeft_add
  rw [allPressTicks, Nat.succ_mul]
  omega

section
variable {c c' : Clock} {s s' : State} {time : Nat} {m : Move} (h : TimedStep c c' s s' time m)
include h

/-- An acquisition restarts the slot timer's part of the clock (R255). -/
theorem TimedStep.clock_of_acquired (hfree : s.bs.token = false) (hheld : s'.bs.token = true) :
    c'.burstStart = time ∧ c'.burstTicks = 0 := by
  simp [h.clock, Clock.after, hfree, hheld]

/-- While the token is held each BS_TICK is counted. -/
theorem TimedStep.clock_of_held (hheld : s.bs.token = true) :
    c'.burstStart = c.burstStart ∧ c'.burstTicks = if m = .bsTick then c.burstTicks + 1 else c.burstTicks := by
  simp [h.clock, Clock.after, hheld]

/-- What the invariant says of the slot timer after the step (R255, R259). -/
theorem TimedStep.slotTimer (hinv : Inv s) (hinv' : Inv s') (hclock : TimedInv c s) (hrun' : s'.bs.run = true) :
    c'.burstTicks = s'.bs.cursor.toNat + s'.bs.pend.toNat ∧
    (c'.burstTicks ≠ 0 → c'.burstStart + (c'.burstTicks - 1) * s'.bs.slotPeriod.toNat ≤ time) ∧
    time ≤ c'.nextSlotTick s' := by
  have hheld' : s'.bs.token = true := hinv'.tokenRun.trans hrun'
  have hgoeson (hsame : s'.bs.token = s.bs.token) : s.bs.token = true ∧ s.bs.run = true :=
    have hheld : s.bs.token = true := hsame.symm.trans hheld'
    ⟨hheld, hinv.tokenRun.symm.trans hheld⟩
  cases takeMove_burstStep h.takes with
  | acquires hfree _ hcursor hpend =>
    obtain ⟨hstart, hticks⟩ := h.clock_of_acquired hfree hheld'
    rw [Clock.nextSlotTick, hstart, hticks, hcursor, hpend]
    simp
  | ends hfree => simp [hfree] at hheld'
  | ticks hmove hbs =>
    subst hmove
    obtain ⟨hheld, hrun⟩ := hgoeson (by rw [hbs])
    obtain ⟨hstart, hticks⟩ := h.clock_of_held hheld
    have hcount : c.burstTicks = s.bs.cursor.toNat := by
      simpa [h.not_pending_of_tick] using hclock.slotTicks hrun
    rw [Clock.nextSlotTick, hstart, hticks, if_pos rfl, hbs, h.slotTickTime, Clock.nextSlotTick, Nat.succ_mul]
    simp [hcount]
  | slot hmove hpend hlt hbs =>
    obtain ⟨hheld, hrun⟩ := hgoeson (by rw [hbs])
    obtain ⟨hstart, hticks⟩ := h.clock_of_held hheld
    have hcount := hclock.slotTicks hrun
    have hsucc := toNat_succ_of_lt hlt
    rw [if_neg (by simp [hmove])] at hticks
    rw [Clock.nextSlotTick, hstart, hticks, hbs]
    exact ⟨hcount.trans (by simp only [hpend, hsucc]; rfl),
      fun hne => (hclock.slotTickPast hrun hne).trans h.notPast, h.slotTickDue hrun⟩
  | keeps hidle hbs =>
    obtain ⟨hheld, hrun⟩ := hgoeson (by rw [hbs])
    obtain ⟨hstart, hticks⟩ := h.clock_of_held hheld
    have hmove : m ≠ .bsTick := fun hmove => by simpa [h.enabled] using hidle (.inl hmove)
    rw [if_neg hmove] at hticks
    rw [Clock.nextSlotTick, hstart, hticks, hbs]
    exact ⟨hclock.slotTicks hrun, fun hne => (hclock.slotTickPast hrun hne).trans h.notPast, h.slotTickDue hrun⟩

/-- What the invariant says of the pulse-pattern timer after the step (R258). -/
theorem TimedStep.pressTimer (hinv : Inv s) (hclock : TimedInv c s) (hrun' : s'.pp.run = true) :
    c'.pressTicks + s'.pressTicksLeft = allPressTicks s'.cfg := by
  have hcfg := takeMove_cfg h.takes
  have hcount (hrun : s.pp.run = true) : c.pressTicks + s.pressTicksLeft = allPressTicks s.cfg :=
    (hinv.ppTicks_iff _).1 (hclock.ppTicks hrun)
  cases hinv.takeMove_pressStep h.takes with
  | starts hstopped _ hleft =>
    simp [h.clock, Clock.after, hstopped, hrun', hleft]
  | stops hstopped => simp [hstopped] at hrun'
  | ticks hmove hrun hleft =>
    have hticks : c'.pressTicks = c.pressTicks + 1 := by simp [h.clock, Clock.after, hrun, hmove]
    rw [hticks, hcfg, ← hcount hrun]
    omega
  | keeps hidle hsame hleft =>
    have hrun : s.pp.run = true := hsame.symm.trans hrun'
    have hmove : m ≠ .ppTick := fun hmove => by simpa [h.enabled] using hidle hmove
    have hticks : c'.pressTicks = c.pressTicks := by simp [h.clock, Clock.after, hrun, hmove]
    rw [hticks, hleft, hcfg, hcount hrun]

end

/-- Settles O57: the two timers' parts of the invariant, each kept by every admitted step. -/
theorem timedStepKeepsClock : Obligations.TimedStepKeepsClock := by
  intro c c' s s' time m hinv hclock hstep
  have h := TimedStep.of_eq hstep
  have hinv' := hinv.takeMove h.takes
  have hnow : c'.now = time := by rw [h.clock]; rfl
  exact
    { slotTicks := fun hrun => (h.slotTimer hinv hinv' hclock hrun).1
      slotTickPast := fun hrun => hnow ▸ (h.slotTimer hinv hinv' hclock hrun).2.1
      slotTickAhead := fun hrun => hnow ▸ (h.slotTimer hinv hinv' hclock hrun).2.2
      ppTicks := fun hrun => (hinv'.ppTicks_iff _).2 (h.pressTimer hinv hclock hrun) }

/-! ### When steps happen -/

/-- Settles O58: pending work belongs to the last tick, number `cursor`, and is done before the next one; the end step
finds the cursor at `bs_len`. -/
theorem workFallsIntoItsWindow : Obligations.WorkFallsIntoItsWindow := by
  intro c c' s s' time hinv hclock hstep
  have h := TimedStep.of_eq hstep
  have hpend : s.bs.pend = true := h.enabled
  have hheld : s.bs.token = true := hinv.pendToken hpend
  have hrun : s.bs.run = true := hinv.tokenRun.symm.trans hheld
  have hticks : c.burstTicks = s.bs.cursor.toNat + 1 := by simpa [hpend] using hclock.slotTicks hrun
  have hafter : c.burstStart + s.bs.cursor.toNat * s.bs.slotPeriod.toNat ≤ time := by
    have hpast := hclock.slotTickPast hrun (by omega)
    rw [hticks, Nat.add_sub_cancel] at hpast
    exact hpast.trans h.notPast
  have hbefore : time < c.burstStart + (s.bs.cursor.toNat + 1) * s.bs.slotPeriod.toNat := by
    rw [← hticks]
    exact h.workDue hpend
  refine ⟨hafter, hbefore, fun hreleased => ?_⟩
  obtain ⟨-, hsame | ⟨hend, -⟩⟩ := bsWork_token ((takeMove_of_enabled h.enabled).symm.trans h.takes)
  · simp [hreleased, hheld] at hsame
  · have hlen : s.bs.len.toNat = s.bs.cursor.toNat := Nat.le_antisymm hend hinv.cursorLe
    rw [State.burstDuration, hlen, Nat.add_assoc, ← Nat.succ_mul]
    exact ⟨hafter, hbefore⟩

/-- Settles O60: the tick that stops the timer is the one tick left, and all ticks before it have been counted. -/
theorem lastPpTickTime : Obligations.LastPpTickTime := by
  intro c c' s s' time hinv hclock hstep hstop
  have h := TimedStep.of_eq hstep
  have hcount := (hinv.ppTicks_iff _).1 (hclock.ppTicks h.enabled)
  have hat : time = c.nextPpTick s := of_decide_eq_true h.atItsTime
  have htick : ppTick s = .next s' := (takeMove_of_enabled h.enabled).symm.trans h.takes
  rcases hinv.ppTick_pressTicksLeft htick with ⟨hrun, -⟩ | ⟨-, hlast⟩
  · simp [hstop] at hrun
  · rw [hat, Clock.nextPpTick, ← hcount, hlast, Nat.add_sub_cancel]

end Sys2Proof.Machine
end

section
/-! PROOFS. The end of a run (R260, R261): quiescence, a rule for progress in weakly fair runs, and its three uses. -/

namespace Sys2Proof.Machine

/-- Settles O53: without a held token no burst runs and no work is pending, and the timer of the transmitter runs
exactly outside IDLE (R39 (3), (4), (6)). -/
theorem quiescentIffNothingEnabled : Obligations.QuiescentIffNothingEnabled := by
  intro s h
  have hidle : s.pp.phase = .idle ↔ s.pp.run = false := by
    rw [← Bool.not_eq_true, h.ppRun, not_not]
  have hquiescent : s.quiescent = true ↔
      s.bs.run = false ∧ s.bs.pend = false ∧ s.bs.wait = false ∧ s.pp.run = false := by
    simp [State.quiescent, h.tokenRun, hidle, and_assoc]
  have hdisabled : (∀ m ∈ internalMoves, enabled m s = false) ↔
      s.bs.run = false ∧ s.bs.pend = false ∧ (s.bs.wait = true → s.bs.token = true) ∧ s.bs.wait = false ∧
        s.pp.run = false := by
    simp [internalMoves, enabled]
  rw [hquiescent, hdisabled]
  constructor
  · rintro ⟨hrun, hpend, hwait, hpp⟩
    exact ⟨hrun, hpend, by simp [hwait], hwait, hpp⟩
  · rintro ⟨hrun, hpend, -, hwait, hpp⟩
    exact ⟨hrun, hpend, hwait, hpp⟩

/-! ### Progress in weakly fair runs -/

section
variable {ms : Nat → Move} {run : Nat → State}

/-- A condition ends in every run that is fair to the groups that help it along: while it holds, some step of the
state's group is enabled, and each step ends it, brings its measure down, or is no enabled step of the group and
leaves group and measure. -/
theorem WeaklyFair.eventually_false {cond : State → Bool} {measure : State → Nat} {group : State → List Move}
    (hfair : ∀ s, WeaklyFair (group s) ms run)
    (henabled : ∀ k, cond (run k) = true → ∃ m ∈ group (run k), enabled m (run k) = true)
    (hstep : ∀ k, cond (run k) = true →
      cond (run (k + 1)) = false ∨ measure (run (k + 1)) < measure (run k) ∨
      ((ms k ∈ group (run k) → enabled (ms k) (run k) = false) ∧
        group (run (k + 1)) = group (run k) ∧ measure (run (k + 1)) = measure (run k)))
    (n : Nat) : ∃ k, n ≤ k ∧ cond (run k) = false := by
  induction hv : measure (run n) using Nat.strong_induction_on generalizing n with
  | _ v ih =>
    by_contra hnever
    have hholds (k : Nat) (hk : n ≤ k) : cond (run k) = true := by
      by_contra hnot
      exact hnever ⟨k, hk, by simpa using hnot⟩
    have hstands (k : Nat) (hk : n ≤ k) (hsame : measure (run k) = v) :
        (ms k ∈ group (run k) → enabled (ms k) (run k) = false) ∧
          group (run (k + 1)) = group (run k) ∧ measure (run (k + 1)) = v := by
      rcases hstep k (hholds k hk) with hnot | hless | ⟨hidle, hgroup, hmeasure⟩
      · simp [hholds (k + 1) (by omega)] at hnot
      · obtain ⟨j, hj, hnot⟩ := ih _ (hsame ▸ hless) (k + 1) rfl
        simp [hholds j (by omega)] at hnot
      · exact ⟨hidle, hgroup, hmeasure.trans hsame⟩
    have hconst (k : Nat) (hk : n ≤ k) : group (run k) = group (run n) ∧ measure (run k) = v := by
      induction k, hk using Nat.le_induction with
      | base => exact ⟨rfl, hv⟩
      | succ k hk ihk =>
        obtain ⟨-, hgroup, hmeasure⟩ := hstands k hk ihk.2
        exact ⟨hgroup.trans ihk.1, hmeasure⟩
    obtain ⟨k, hk, hmem, hen⟩ := hfair (run n) n fun k hk => (hconst k hk).1 ▸ henabled k (hholds k hk)
    obtain ⟨hgroup, hmeasure⟩ := hconst k hk
    have hidle := (hstands k hk hmeasure).1 (hgroup ▸ hmem)
    simp [hen] at hidle

/-- The invariants hold all along a run that starts with them. -/
theorem FairRun.inv (h : FairRun ms run) (hinv : Inv (run 0)) (n : Nat) : Inv (run n) := by
  induction n with
  | zero => exact hinv
  | succ n ih => exact ih.takeMove (h.steps n)

/-! ### Every wait ends (R76, R257) -/

theorem FairRun.wait_ends (h : FairRun ms run) (n : Nat) : ∃ k, n ≤ k ∧ (run k).bs.wait = false := by
  refine WeaklyFair.eventually_false (cond := fun s => s.bs.wait) (measure := fun _ => 0)
    (group := fun _ => [.bsGrant, .bsTimeout]) (fun _ => h.waiter) (fun k hwait => ⟨.bsTimeout, by simp, hwait⟩)
    (fun k _ => ?_) n
  by_cases hends : ms k ∈ [Move.bsGrant, .bsTimeout] ∧ enabled (ms k) (run k) = true
  · obtain ⟨_, -, hended⟩ := waiter_response (by simpa using hends.1) hends.2 (h.steps k)
    exact .inl hended
  · exact .inr (.inr ⟨fun hmem => by simpa [hmem] using hends, rfl, rfl⟩)

/-! ### Every frame sequence ends (R179) -/

theorem FairRun.press_ends (h : FairRun ms run) (hinv : Inv (run 0)) (n : Nat) :
    ∃ k, n ≤ k ∧ (run k).pp.run = false := by
  refine WeaklyFair.eventually_false (cond := fun s => s.pp.run) (measure := State.pressTicksLeft)
    (group := fun _ => [.ppTick]) (fun _ => h.ppTick) (fun k hrun => ⟨.ppTick, by simp, hrun⟩) (fun k hrun => ?_) n
  cases (h.inv hinv k).takeMove_pressStep (h.steps k) with
  | starts hstopped => simp [hrun] at hstopped
  | stops hstopped => exact .inl hstopped
  | ticks _ _ hleft => exact .inr (.inl (by omega))
  | keeps hidle _ hleft => exact .inr (.inr ⟨fun hmem => hidle (by simpa using hmem), rfl, hleft⟩)

/-! ### Every burst ends (R256) -/

/-- The step that a burst waits for: the work unit where one is pending, else the tick. -/
def Burst.helpful (b : Burst) : Move := if b.pend then .bsWork else .bsTick

/-- The ticks and work units that a burst still needs for its slots and its end step's tick: two for each slot left
and one for a tick that has not yet happened. -/
def Burst.slotStepsLeft (b : Burst) : Nat := 2 * (b.len.toNat - b.cursor.toNat) + (!b.pend).toNat

theorem Burst.helpful_of_pend {b : Burst} (h : b.pend = true) : b.helpful = .bsWork := by simp [Burst.helpful, h]

theorem Burst.helpful_of_not_pend {b : Burst} (h : b.pend = false) : b.helpful = .bsTick := by simp [Burst.helpful, h]

/-- The timer runs while the token is held, so the step that the burst waits for is enabled (R39 (3)). -/
theorem Inv.enabled_helpful {s : State} (h : Inv s) (hheld : s.bs.token = true) :
    enabled s.bs.helpful s = true := by
  cases hpend : s.bs.pend
  · rw [Burst.helpful_of_not_pend hpend]
    exact h.tokenRun.symm.trans hheld
  · rw [Burst.helpful_of_pend hpend]
    exact hpend

theorem FairRun.helpful (h : FairRun ms run) (b : Burst) : WeaklyFair [b.helpful] ms run := by
  cases hpend : b.pend
  · rw [Burst.helpful_of_not_pend hpend]
    exact h.bsTick
  · rw [Burst.helpful_of_pend hpend]
    exact h.bsWork

/-- A step taken while the token is held frees it, brings the burst on, or is not the one it waits for. -/
theorem BurstStep.progress {m : Move} {s t : State} (h : BurstStep m s t) (hheld : s.bs.token = true) :
    t.bs.token = false ∨ t.bs.slotStepsLeft < s.bs.slotStepsLeft ∨
      ((m = s.bs.helpful → enabled m s = false) ∧ t.bs.helpful = s.bs.helpful ∧
        t.bs.slotStepsLeft = s.bs.slotStepsLeft) := by
  cases h with
  | acquires hfree => simp [hheld] at hfree
  | ends hfree => exact .inl hfree
  | ticks hmove hbs =>
    cases hpend : s.bs.pend
    · exact .inr (.inl (by simp [Burst.slotStepsLeft, hbs, hpend]))
    · have hsame : t.bs = s.bs := by rw [hbs, ← hpend]
      refine .inr (.inr ⟨fun hhelpful => ?_, by rw [hsame], by rw [hsame]⟩)
      simp [hmove, Burst.helpful_of_pend hpend] at hhelpful
  | slot _ hpend hlt hbs =>
    have hsucc := toNat_succ_of_lt hlt
    rw [BitVec.lt_def] at hlt
    refine .inr (.inl ?_)
    simp only [Burst.slotStepsLeft, hbs, hsucc, hpend, Bool.not_false, Bool.not_true, Bool.toNat_true,
      Bool.toNat_false]
    omega
  | keeps hidle hbs =>
    refine .inr (.inr ⟨fun hhelpful => hidle ?_, by rw [hbs]; rfl, by rw [hbs]; rfl⟩)
    rw [hhelpful]
    cases hpend : s.bs.pend
    · exact .inl (Burst.helpful_of_not_pend hpend)
    · exact .inr (Burst.helpful_of_pend hpend)

theorem FairRun.burst_ends (h : FairRun ms run) (hinv : Inv (run 0)) (n : Nat) :
    ∃ k, n ≤ k ∧ (run k).bs.token = false := by
  refine WeaklyFair.eventually_false (ms := ms) (cond := fun s => s.bs.token)
    (measure := fun s => s.bs.slotStepsLeft) (group := fun s => [s.bs.helpful]) (fun s => h.helpful s.bs)
    (fun k hheld => ⟨_, by simp, (h.inv hinv k).enabled_helpful hheld⟩) (fun k hheld => ?_) n
  rcases (takeMove_burstStep (h.steps k)).progress hheld with hfree | hless | ⟨hidle, hhelpful, hleft⟩
  · exact .inl hfree
  · exact .inr (.inl hless)
  · exact .inr (.inr ⟨fun hmem => hidle (by simpa using hmem), by rw [hhelpful], hleft⟩)

end

/-- Settles O54: bursts, waits and frame sequences each end by the rule for progress. -/
theorem fairRunsComplete : Obligations.FairRunsComplete := fun _ _ h hinv n =>
  ⟨fun _ => h.burst_ends hinv n, fun _ => h.wait_ends n, fun _ => h.press_ends hinv n⟩

end Sys2Proof.Machine
end
